-- ==== Sys2Proof/Word.lean ====
section
/-! DEFINITION. The word types of the KX8 and their plainest arithmetic (R19, R41, R42, R57). -/
namespace Sys2Proof

/-- A 32-bit lane value, an s register, an instruction word (R19, R57). -/
abbrev Word := BitVec 32
/-- A byte of memory, of a pad or of a tile. -/
abbrev Byte := BitVec 8
/-- A 64-bit value: a register pair, a q register, an address (R19). -/
abbrev Dword := BitVec 64
/-- A set of lanes: bit k is lane k (R12). -/
abbrev Mask := BitVec 32

/-- Lane k is in the mask. -/
def Mask.has (m : Mask) (k : Nat) : Bool := m.getLsbD k

/-- The mask of lane k alone. -/
def Mask.one (k : Nat) : Mask := 1#32 <<< k

/-- The lanes of a mask in ascending order (R14). -/
def Mask.lanes (m : Mask) : List Nat := (List.range 32).filter fun k => m.getLsbD k

/-- The mask of a list of lanes. -/
def Mask.ofLanes (l : List Nat) : Mask := l.foldl (fun m k => m ||| Mask.one k) 0

/-- A pair of words as one 64-bit value, the high word first. -/
def pair (hi lo : Word) : Dword := hi ++ lo

/-- The low word of a 64-bit value. -/
def loWord (x : Dword) : Word := x.extractLsb' 0 32

/-- The high word of a 64-bit value. -/
def hiWord (x : Dword) : Word := x.extractLsb' 32 32

/-- Field [lo + n − 1 : lo] of a number. -/
def fld (w lo n : Nat) : Nat := w / 2 ^ lo % 2 ^ n

/-- A word as the bytes it occupies in memory, lowest address first (R57, R132). -/
def wordBytes (w : Word) : List Byte :=
  [w.extractLsb' 0 8, w.extractLsb' 8 8, w.extractLsb' 16 8, w.extractLsb' 24 8]

/-- n little-endian bytes of a number. -/
def natBytes : Nat → Nat → List Byte
  | 0, _ => []
  | n + 1, x => BitVec.ofNat 8 x :: natBytes n (x / 256)

/-- The number that little-endian bytes hold. -/
def bytesNat : List Byte → Nat
  | [] => 0
  | b :: bs => b.toNat + 256 * bytesNat bs

/-- The word that little-endian bytes hold. -/
def bytesWord (bs : List Byte) : Word := BitVec.ofNat 32 (bytesNat bs)

end Sys2Proof
end

