-- ==== Sys2Proof/Wire.lean ====
section
/-! DEFINITION. The plain-data arguments of the event rows: fabric packets (R339), link configuration records (R352),
what a translation walk is for (R236) and where a soft error strikes (R243). -/
namespace Sys2Proof

/-- A packet of the fabric: the 32-byte header of R339, its payload words and its index trailer (R342).
`reserved` says that some reserved field of the header is nonzero. -/
structure Packet where
  type : BitVec 4
  trimmed : Bool
  hp : Bool
  trailer : Bool
  length : BitVec 7
  target : BitVec 12
  mc : Bool
  source : BitVec 12
  seq : BitVec 16
  prior : BitVec 16
  plane : BitVec 5
  pv : Bool
  status : BitVec 4
  epoch : BitVec 4
  domain : BitVec 16
  lowack : BitVec 16
  line : Dword
  mask : Dword
  payload : List Word
  index : List Byte
  reserved : Bool
deriving DecidableEq, Repr

/-- The configuration record of one end of a link (R352). -/
structure LinkRecord where
  width : BitVec 2
  laneMap : Byte
  speed : BitVec 2
  attempt : BitVec 2
deriving DecidableEq, Repr

/-- What a translation walk is for (R236): one lane's access, an engine operation, a split that waits at issue (fetch,
WAITM, BIDX, a rope instruction), a queue's own access (R368), or a team's completion record (R267). -/
inductive WalkRef where
  | lane (tm g op lane : Nat)
  | engine (ctx num : Nat)
  | split (tm g sp : Nat)
  | queue (q : Nat)
  | team (tm : Nat)
  /-- an admin command, by its place in the ring (R317) -/
  | admin (num : Nat)
  /-- a packet that this device performs, or the end of one that it has sent: run and seq (R345, R350) -/
  | packet (key seq : Nat)
  | run (key seq : Nat)
  /-- a contract's miss count (R273), a view commit (R306) -/
  | contract (space cid : Nat)
  | view (space rec : Nat)
deriving DecidableEq, Repr

/-- Where a soft error strikes (R243). `clean` is a clean copy (instruction cache, L1, a die-cache line that matches
HBM); `control` is control state of a core. -/
inductive ErrLoc where
  | mem (key : Nat)
  | vreg (tm g name lane : Nat)
  | sreg (tm g name : Nat)
  | split (tm g entry : Nat)
  | pad (tm word : Nat)
  | tile (core slot word : Nat)
  | weight (core entry word : Nat)
  | tail (die slot word : Nat)
  | clean (die : Nat)
  | control (core : Nat)
deriving DecidableEq, Repr

end Sys2Proof
end

