-- ==== Sys2Proof/Syntax.lean ====
section
/-! DEFINITION. The instructions and events of the KX8: one constructor for each row of spec/opcode_table.json, with the
fields that the row's word carries (R58, R59, R71, R76). `la` and `lb` are the last-read bits of the a and b operands (R70).
The marker bit [30] means the same in every word (R57, R68), so it stands beside the instruction (Decode.lean), not in it.
Rows without fields stand after the others. An event row has no word: what the event is about stands in the state (State.ev) when the event happens. -/
namespace Sys2Proof

inductive Instr where
  /-- IADD (R83): Adds two lane values modulo 2^32, or with .sat clamps the signed sum. -/
  | iadd (d : BitVec 6) (a : BitVec 6) (b : BitVec 6) (la : Bool) (lb : Bool) (x : Bool)
  /-- ISUB (R83): Subtracts lane values modulo 2^32, or with .sat clamps the signed difference. -/
  | isub (d : BitVec 6) (a : BitVec 6) (b : BitVec 6) (la : Bool) (lb : Bool) (x : Bool)
  /-- IMUL (R83): Multiplies lane values, giving the low word or with .hi the signed high word. -/
  | imul (d : BitVec 6) (a : BitVec 6) (b : BitVec 6) (la : Bool) (lb : Bool) (x : Bool)
  /-- IMULN (R83): Multiplies lane values, giving the low word or with .hi the unsigned high word. -/
  | imuln (d : BitVec 6) (a : BitVec 6) (b : BitVec 6) (la : Bool) (lb : Bool) (x : Bool)
  /-- IMIN (R83): Takes the signed, or with .n32 unsigned, minimum per lane. -/
  | imin (d : BitVec 6) (a : BitVec 6) (b : BitVec 6) (la : Bool) (lb : Bool) (x : Bool)
  /-- IMAX (R83): Takes the signed, or with .n32 unsigned, maximum per lane. -/
  | imax (d : BitVec 6) (a : BitVec 6) (b : BitVec 6) (la : Bool) (lb : Bool) (x : Bool)
  /-- AND (R83): Bitwise AND of two lane values. -/
  | and (d : BitVec 6) (a : BitVec 6) (b : BitVec 6) (la : Bool) (lb : Bool)
  /-- OR (R83): Bitwise OR of two lane values. -/
  | or (d : BitVec 6) (a : BitVec 6) (b : BitVec 6) (la : Bool) (lb : Bool)
  /-- XOR (R83): Bitwise XOR of two lane values. -/
  | xor (d : BitVec 6) (a : BitVec 6) (b : BitVec 6) (la : Bool) (lb : Bool)
  /-- ANDN (R83): Bitwise AND of the first value with the complement of the second. -/
  | andn (d : BitVec 6) (a : BitVec 6) (b : BitVec 6) (la : Bool) (lb : Bool)
  /-- SHL (R83): Shifts left by an unsigned count, giving 0 for counts of 32 or more. -/
  | shl (d : BitVec 6) (a : BitVec 6) (b : BitVec 6) (la : Bool) (lb : Bool)
  /-- SHR (R83): Shifts right logically, or arithmetically with .i32. -/
  | shr (d : BitVec 6) (a : BitVec 6) (b : BitVec 6) (la : Bool) (lb : Bool) (x : Bool)
  /-- ROT (R83): Rotates a lane value left by y[4:0]. -/
  | rot (d : BitVec 6) (a : BitVec 6) (b : BitVec 6) (la : Bool) (lb : Bool)
  /-- BFX (R84): Extracts a bit field, zero- or with .i32 sign-extended. -/
  | bfx (d : BitVec 6) (a : BitVec 6) (b : BitVec 6) (la : Bool) (lb : Bool) (x : Bool)
  /-- IDIVN (R86): Divides unsigned per lane giving quotient or with .rem remainder, as a long-latency operation. -/
  | idivn (d : BitVec 6) (a : BitVec 6) (b : BitVec 6) (la : Bool) (lb : Bool) (x : Bool)
  /-- FADD (R87): Adds FP32 lane values rounded under FMT.rm. -/
  | fadd (d : BitVec 6) (a : BitVec 6) (b : BitVec 6) (la : Bool) (lb : Bool)
  /-- FSUB (R87): Subtracts FP32 lane values rounded under FMT.rm. -/
  | fsub (d : BitVec 6) (a : BitVec 6) (b : BitVec 6) (la : Bool) (lb : Bool)
  /-- FMUL (R87): Multiplies FP32 lane values rounded under FMT.rm. -/
  | fmul (d : BitVec 6) (a : BitVec 6) (b : BitVec 6) (la : Bool) (lb : Bool)
  /-- FMIN (R87): Takes the FP32 minimum with the NaN rules of R49. -/
  | fmin (d : BitVec 6) (a : BitVec 6) (b : BitVec 6) (la : Bool) (lb : Bool) (x : Bool)
  /-- FMAX (R87): Takes the FP32 maximum with the NaN rules of R49. -/
  | fmax (d : BitVec 6) (a : BitVec 6) (b : BitVec 6) (la : Bool) (lb : Bool) (x : Bool)
  /-- HADD2 (R88): Adds packed half elements separately. -/
  | hadd2 (d : BitVec 6) (a : BitVec 6) (b : BitVec 6) (la : Bool) (lb : Bool)
  /-- HSUB2 (R88): Subtracts packed half elements separately. -/
  | hsub2 (d : BitVec 6) (a : BitVec 6) (b : BitVec 6) (la : Bool) (lb : Bool)
  /-- HMUL2 (R88): Multiplies packed half elements separately. -/
  | hmul2 (d : BitVec 6) (a : BitVec 6) (b : BitVec 6) (la : Bool) (lb : Bool)
  /-- HMIN2 (R88): Takes the minimum of packed half elements. -/
  | hmin2 (d : BitVec 6) (a : BitVec 6) (b : BitVec 6) (la : Bool) (lb : Bool)
  /-- HMAX2 (R88): Takes the maximum of packed half elements. -/
  | hmax2 (d : BitVec 6) (a : BitVec 6) (b : BitVec 6) (la : Bool) (lb : Bool)
  /-- PACK2 (R88): Packs the low or with .hi the high halves of two values. -/
  | pack2 (d : BitVec 6) (a : BitVec 6) (b : BitVec 6) (la : Bool) (lb : Bool) (x : Bool)
  /-- IADD64 (R85): Adds 64-bit register pairs, or a sign-extended 32-bit b with .sx. -/
  | iadd64 (d : BitVec 6) (a : BitVec 6) (b : BitVec 6) (la : Bool) (lb : Bool) (x : Bool)
  /-- ISUB64 (R85): Subtracts 64-bit register pairs. -/
  | isub64 (d : BitVec 6) (a : BitVec 6) (b : BitVec 6) (la : Bool) (lb : Bool)
  /-- FDIV (R87): Divides FP32 values correctly rounded, as a long-latency operation. -/
  | fdiv (d : BitVec 6) (a : BitVec 6) (b : BitVec 6) (la : Bool) (lb : Bool)
  /-- MOVI (R89): Moves a sign-extended 16-bit immediate into each active lane. -/
  | movi (d : BitVec 6) (imm : BitVec 16)
  /-- MOVHI (R89): Places an immediate in the high half, keeping the low half. -/
  | movhi (d : BitVec 6) (imm : BitVec 16)
  /-- IADDI (R89): Adds a sign-extended immediate. -/
  | iaddi (d : BitVec 6) (imm : BitVec 16)
  /-- IMULI (R89): Multiplies by a sign-extended immediate. -/
  | imuli (d : BitVec 6) (imm : BitVec 16)
  /-- ANDI (R89): ANDs with a zero-extended immediate. -/
  | andi (d : BitVec 6) (imm : BitVec 16)
  /-- ORI (R89): ORs with a zero-extended immediate. -/
  | ori (d : BitVec 6) (imm : BitVec 16)
  /-- XORI (R89): XORs with a zero-extended immediate. -/
  | xori (d : BitVec 6) (imm : BitVec 16)
  /-- SHLI (R89): Shifts left by an immediate count. -/
  | shli (d : BitVec 6) (imm : BitVec 5)
  /-- SHRI (R89): Shifts right logically by an immediate count. -/
  | shri (d : BitVec 6) (imm : BitVec 5)
  /-- SHRAI (R89): Shifts right arithmetically by an immediate count. -/
  | shrai (d : BitVec 6) (imm : BitVec 5)
  /-- FADDI (R89): Adds a BF16 immediate widened to FP32. -/
  | faddi (d : BitVec 6) (imm : BitVec 16)
  /-- FMULI (R89): Multiplies by a BF16 immediate widened to FP32. -/
  | fmuli (d : BitVec 6) (imm : BitVec 16)
  /-- FMOVI (R89): Moves a BF16 immediate widened to FP32. -/
  | fmovi (d : BitVec 6) (imm : BitVec 16)
  /-- HADD2I (R89): Adds a half immediate to both half elements. -/
  | hadd2i (d : BitVec 6) (imm : BitVec 16)
  /-- HMUL2I (R89): Multiplies both half elements by a half immediate. -/
  | hmul2i (d : BitVec 6) (imm : BitVec 16)
  /-- HMOVI2 (R89): Copies the immediate bits into both halves. -/
  | hmovi2 (d : BitVec 6) (imm : BitVec 16)
  /-- QMOVI4 (R89): Copies two 8-bit immediate elements into the four bytes. -/
  | qmovi4 (d : BitVec 6) (imm : BitVec 16)
  /-- FMINI (R89): Takes the minimum with a BF16 immediate. -/
  | fmini (d : BitVec 6) (imm : BitVec 16)
  /-- FMAXI (R89): Takes the maximum with a BF16 immediate. -/
  | fmaxi (d : BitVec 6) (imm : BitVec 16)
  /-- FFMA (R90): Fused multiply-add with one rounding under FMT.rm or the override. -/
  | ffma (d : BitVec 6) (a : BitVec 6) (b : BitVec 6) (la : Bool) (lb : Bool) (r : BitVec 3)
  /-- FNMA (R90): Fused negative multiply-add with one rounding. -/
  | fnma (d : BitVec 6) (a : BitVec 6) (b : BitVec 6) (la : Bool) (lb : Bool) (r : BitVec 3)
  /-- HFMA2 (R90): Fused multiply-add on each half element. -/
  | hfma2 (d : BitVec 6) (a : BitVec 6) (b : BitVec 6) (la : Bool) (lb : Bool)
  /-- IMAD (R90): Integer multiply-add of the low or high product word. -/
  | imad (d : BitVec 6) (a : BitVec 6) (b : BitVec 6) (la : Bool) (lb : Bool) (h : Bool)
  /-- DOT4 (R91): Accumulates a four-element 8-bit dot product with one rounding. -/
  | dot4 (d : BitVec 6) (a : BitVec 6) (b : BitVec 6) (la : Bool) (lb : Bool)
  /-- DOT8 (R91): Accumulates an eight-element 4-bit dot product. -/
  | dot8 (d : BitVec 6) (a : BitVec 6) (b : BitVec 6) (la : Bool) (lb : Bool)
  /-- DOT2H (R91): Accumulates a two-element 16-bit dot product into FP32. -/
  | dot2h (d : BitVec 6) (a : BitVec 6) (b : BitVec 6) (la : Bool) (lb : Bool)
  /-- BFI (R92): Inserts a bit field into the destination. -/
  | bfi (d : BitVec 6) (a : BitVec 6) (b : BitVec 6) (la : Bool) (lb : Bool)
  /-- PERMB (R92): Permutes bytes of two values under nibble selectors in d. -/
  | permb (d : BitVec 6) (a : BitVec 6) (b : BitVec 6) (la : Bool) (lb : Bool)
  /-- SEL (R92): Selects a or b per lane by a predicate. -/
  | sel (d : BitVec 6) (a : BitVec 6) (b : BitVec 6) (la : Bool) (lb : Bool) (p : BitVec 3)
  /-- FCLAMP (R92): Clamps the destination between two FP32 bounds. -/
  | fclamp (d : BitVec 6) (a : BitVec 6) (b : BitVec 6) (la : Bool) (lb : Bool)
  /-- IMADW (R90): Adds a signed 64-bit product into a register pair. -/
  | imadw (d : BitVec 6) (a : BitVec 6) (b : BitVec 6) (la : Bool) (lb : Bool)
  /-- MOV (R93): Copies a lane value. -/
  | mov (d : BitVec 6) (a : BitVec 6) (la : Bool)
  /-- FABS (R93): Clears the sign bit. -/
  | fabs (d : BitVec 6) (a : BitVec 6) (la : Bool)
  /-- FNEG (R93): Inverts the sign bit. -/
  | fneg (d : BitVec 6) (a : BitVec 6) (la : Bool)
  /-- INEG (R93): Negates an integer modulo 2^32. -/
  | ineg (d : BitVec 6) (a : BitVec 6) (la : Bool)
  /-- NOT (R93): Complements every bit. -/
  | not (d : BitVec 6) (a : BitVec 6) (la : Bool)
  /-- POPC (R93): Counts one bits. -/
  | popc (d : BitVec 6) (a : BitVec 6) (la : Bool)
  /-- CLZ (R93): Counts leading zero bits. -/
  | clz (d : BitVec 6) (a : BitVec 6) (la : Bool)
  /-- BREV (R93): Reverses the bit order. -/
  | brev (d : BitVec 6) (a : BitVec 6) (la : Bool)
  /-- FRCP (R94): Computes a correctly rounded reciprocal on the function unit. -/
  | frcp (d : BitVec 6) (a : BitVec 6) (la : Bool)
  /-- FRSQ (R94): Computes a reciprocal square root within 1 ulp. -/
  | frsq (d : BitVec 6) (a : BitVec 6) (la : Bool)
  /-- FSQRT (R94): Computes a correctly rounded square root. -/
  | fsqrt (d : BitVec 6) (a : BitVec 6) (la : Bool)
  /-- FEXP2 (R94): Computes 2^x within 2 ulp. -/
  | fexp2 (d : BitVec 6) (a : BitVec 6) (la : Bool)
  /-- FLOG2 (R94): Computes log2 x. -/
  | flog2 (d : BitVec 6) (a : BitVec 6) (la : Bool)
  /-- FSIN (R94): Computes sin of x turns. -/
  | fsin (d : BitVec 6) (a : BitVec 6) (la : Bool)
  /-- FCOS (R94): Computes cos of x turns. -/
  | fcos (d : BitVec 6) (a : BitVec 6) (la : Bool)
  /-- FTANH (R94): Computes tanh x. -/
  | ftanh (d : BitVec 6) (a : BitVec 6) (la : Bool)
  /-- FTOI (R95): Converts FP32 to signed INT32 with clamping. -/
  | ftoi (d : BitVec 6) (a : BitVec 6) (la : Bool)
  /-- ITOF (R95): Converts signed INT32 to FP32. -/
  | itof (d : BitVec 6) (a : BitVec 6) (la : Bool)
  /-- FCVT (R95): Converts FP32 to a 16-bit float into one half of d. -/
  | fcvt (d : BitVec 6) (a : BitVec 6) (la : Bool) (h : Bool)
  /-- HCVT (R95): Widens one half of a to FP32 exactly. -/
  | hcvt (d : BitVec 6) (a : BitVec 6) (la : Bool) (h : Bool)
  /-- QCVT (R95): Converts FP32 to an 8-bit format into one byte of d. -/
  | qcvt (d : BitVec 6) (a : BitVec 6) (la : Bool) (b : BitVec 2)
  /-- QUNP (R95): Widens one byte of a to FP32 exactly. -/
  | qunp (d : BitVec 6) (a : BitVec 6) (la : Bool) (b : BitVec 2)
  /-- Q4CVT (R95): Converts FP32 to a 4-bit format into one nibble of d. -/
  | q4cvt (d : BitVec 6) (a : BitVec 6) (la : Bool) (n : BitVec 3)
  /-- Q4UNP (R95): Widens one nibble of a to FP32 exactly. -/
  | q4unp (d : BitVec 6) (a : BitVec 6) (la : Bool) (n : BitVec 3)
  /-- FRND (R96): Rounds to an integral FP32 value by floor, ceil, trunc or even. -/
  | frnd (d : BitVec 6) (a : BitVec 6) (la : Bool) (r : BitVec 2)
  /-- FCLASS (R96): Writes a one-hot class mask of an FP32 value. -/
  | fclass (d : BitVec 6) (a : BitVec 6) (la : Bool)
  /-- LANEID (R96): Writes each lane's index. -/
  | laneid (d : BitVec 6)
  /-- ICMP (R97): Compares signed integers and combines the outcome into a predicate. -/
  | icmp (p : BitVec 3) (a : BitVec 6) (b : BitVec 6) (la : Bool) (lb : Bool) (c : BitVec 2) (k : BitVec 3)
  /-- ICMPN (R97): Compares unsigned integers and combines the outcome into a predicate. -/
  | icmpn (p : BitVec 3) (a : BitVec 6) (b : BitVec 6) (la : Bool) (lb : Bool) (c : BitVec 2) (k : BitVec 3)
  /-- FCMP (R97): Compares FP32 values and combines the outcome into a predicate. -/
  | fcmp (p : BitVec 3) (a : BitVec 6) (b : BitVec 6) (la : Bool) (lb : Bool) (c : BitVec 2) (k : BitVec 3)
  /-- TESTB (R98): Tests one bit of a lane value into a predicate. -/
  | testb (p : BitVec 3) (a : BitVec 6) (b : BitVec 6) (la : Bool) (lb : Bool) (c : BitVec 2)
  /-- PLOG (R98): Combines two predicates by a logic function into a predicate. -/
  | plog (p : BitVec 3) (f : BitVec 2) (q : BitVec 3) (r : BitVec 3) (c : BitVec 2)
  /-- SCAN (R99): Inclusive running combination down the active lanes. -/
  | scan (d : BitVec 6) (a : BitVec 6) (s : BitVec 6) (la : Bool) (k : BitVec 3)
  /-- SCANX (R99): Exclusive running combination down the active lanes. -/
  | scanx (d : BitVec 6) (a : BitVec 6) (s : BitVec 6) (la : Bool) (k : BitVec 3)
  /-- REDUCE (R99): Combines the active lanes into an s register. -/
  | reduce (a : BitVec 6) (s : BitVec 6) (la : Bool) (k : BitVec 3)
  /-- PREV (R100): Passes each value to the next active lane. -/
  | prevLane (d : BitVec 6) (a : BitVec 6) (s : BitVec 6) (la : Bool)
  /-- NEXT (R100): Passes each value to the previous active lane in two passes. -/
  | nextLane (d : BitVec 6) (a : BitVec 6) (s : BitVec 6) (la : Bool)
  /-- SHUP (R101): Reads from lane k minus a count. -/
  | shup (d : BitVec 6) (a : BitVec 6) (s : BitVec 6) (la : Bool) (g : Bool)
  /-- SHDN (R101): Reads from lane k plus a count in two passes. -/
  | shdn (d : BitVec 6) (a : BitVec 6) (s : BitVec 6) (la : Bool) (g : Bool)
  /-- BFLY (R101): Reads from lane k XOR a count in two passes. -/
  | bfly (d : BitVec 6) (a : BitVec 6) (s : BitVec 6) (la : Bool) (g : Bool)
  /-- PERM (R101): Reads from the lane named by the old d value. -/
  | perm (d : BitVec 6) (a : BitVec 6) (s : BitVec 6) (la : Bool) (g : Bool)
  /-- BCASTL (R101): Broadcasts one source lane to all active lanes. -/
  | bcastl (d : BitVec 6) (a : BitVec 6) (s : BitVec 6) (la : Bool) (g : Bool)
  /-- VOTE (R102): Gathers a predicate over active lanes into an s register mask. -/
  | vote (p : BitVec 3) (s : BitVec 6)
  /-- MATCH (R102): Writes masks of lanes with equal values and a leader mask. -/
  | matchEq (d : BitVec 6) (a : BitVec 6) (s : BitVec 6) (la : Bool)
  /-- GETS (R102): Broadcasts an s register into every active lane. -/
  | gets (d : BitVec 6) (s : BitVec 6)
  /-- PUTS (R102): Writes the lowest active lane's value into an s register. -/
  | puts (a : BitVec 6) (s : BitVec 6) (la : Bool)
  /-- LDG8N (R137): Loads a zero-extended byte per lane from global memory. -/
  | ldg8n (t : BitVec 6) (a : BitVec 6) (s : BitVec 4) (la : Bool) (imm : BitVec 5)
  /-- LDG8I (R137): Loads a sign-extended byte per lane. -/
  | ldg8i (t : BitVec 6) (a : BitVec 6) (s : BitVec 4) (la : Bool) (imm : BitVec 5)
  /-- LDG16N (R137): Loads a zero-extended halfword per lane. -/
  | ldg16n (t : BitVec 6) (a : BitVec 6) (s : BitVec 4) (la : Bool) (imm : BitVec 5)
  /-- LDG16I (R137): Loads a sign-extended halfword per lane. -/
  | ldg16i (t : BitVec 6) (a : BitVec 6) (s : BitVec 4) (la : Bool) (imm : BitVec 5)
  /-- LDG32 (R137): Loads a word per lane. -/
  | ldg32 (t : BitVec 6) (a : BitVec 6) (s : BitVec 4) (la : Bool) (imm : BitVec 5)
  /-- LDG64 (R137): Loads a doubleword per lane into a pair. -/
  | ldg64 (t : BitVec 6) (a : BitVec 6) (s : BitVec 4) (la : Bool) (imm : BitVec 5)
  /-- LDG128 (R137): Loads 16 bytes per lane into a quad. -/
  | ldg128 (t : BitVec 6) (a : BitVec 6) (s : BitVec 4) (la : Bool) (imm : BitVec 5)
  /-- STG8 (R138): Stores a byte per lane to global memory. -/
  | stg8 (t : BitVec 6) (a : BitVec 6) (s : BitVec 4) (la : Bool) (imm : BitVec 5)
  /-- STG16 (R138): Stores a halfword per lane. -/
  | stg16 (t : BitVec 6) (a : BitVec 6) (s : BitVec 4) (la : Bool) (imm : BitVec 5)
  /-- STG32 (R138): Stores a word per lane. -/
  | stg32 (t : BitVec 6) (a : BitVec 6) (s : BitVec 4) (la : Bool) (imm : BitVec 5)
  /-- STG64 (R138): Stores a doubleword per lane from a pair. -/
  | stg64 (t : BitVec 6) (a : BitVec 6) (s : BitVec 4) (la : Bool) (imm : BitVec 5)
  /-- STG128 (R138): Stores 16 bytes per lane from a quad. -/
  | stg128 (t : BitVec 6) (a : BitVec 6) (s : BitVec 4) (la : Bool) (imm : BitVec 5)
  /-- LDP32 (R142): Loads a pad word per lane from the own or a sibling pad. -/
  | ldp32 (t : BitVec 6) (a : BitVec 6) (s : BitVec 4) (la : Bool) (imm : BitVec 5)
  /-- LDP64 (R142): Loads a pad doubleword per lane. -/
  | ldp64 (t : BitVec 6) (a : BitVec 6) (s : BitVec 4) (la : Bool) (imm : BitVec 5)
  /-- LDP128 (R142): Loads 16 pad bytes per lane. -/
  | ldp128 (t : BitVec 6) (a : BitVec 6) (s : BitVec 4) (la : Bool) (imm : BitVec 5)
  /-- STP32 (R142): Stores a pad word per lane. -/
  | stp32 (t : BitVec 6) (a : BitVec 6) (s : BitVec 4) (la : Bool) (imm : BitVec 5)
  /-- STP64 (R142): Stores a pad doubleword per lane. -/
  | stp64 (t : BitVec 6) (a : BitVec 6) (s : BitVec 4) (la : Bool) (imm : BitVec 5)
  /-- STP128 (R142): Stores 16 pad bytes per lane. -/
  | stp128 (t : BitVec 6) (a : BitVec 6) (s : BitVec 4) (la : Bool) (imm : BitVec 5)
  /-- ATOMG (R146): Applies an atomic operation at a global location and returns the old value. -/
  | atomg (t : BitVec 6) (a : BitVec 6) (s : BitVec 4) (la : Bool) (c : BitVec 5)
  /-- REDG (R146): Applies a reduction at a global location without a result. -/
  | redg (t : BitVec 6) (a : BitVec 6) (s : BitVec 4) (la : Bool) (c : BitVec 5)
  /-- ATOMP (R146): Applies an atomic operation at a pad word. -/
  | atomp (t : BitVec 6) (a : BitVec 6) (s : BitVec 4) (la : Bool) (c : BitVec 5)
  /-- PREFG (R149): Prefetches a line into L1 and the die cache. -/
  | prefg (a : BitVec 6) (s : BitVec 4) (la : Bool) (imm : BitVec 5)
  /-- LDA32 (R145): Acquire load of a word at a scope. -/
  | lda32 (t : BitVec 6) (a : BitVec 6) (s : BitVec 4) (la : Bool) (c : BitVec 3)
  /-- LDA64 (R145): Acquire load of a doubleword at a scope. -/
  | lda64 (t : BitVec 6) (a : BitVec 6) (s : BitVec 4) (la : Bool) (c : BitVec 3)
  /-- STL32 (R145): Release store of a word at a scope. -/
  | stl32 (t : BitVec 6) (a : BitVec 6) (s : BitVec 4) (la : Bool) (c : BitVec 3)
  /-- STL64 (R145): Release store of a doubleword at a scope. -/
  | stl64 (t : BitVec 6) (a : BitVec 6) (s : BitVec 4) (la : Bool) (c : BitVec 3)
  /-- LDF32 (R148): Loads a word from a flat 64-bit lane address. -/
  | ldf32 (t : BitVec 6) (a : BitVec 6) (la : Bool) (imm : BitVec 5)
  /-- STF32 (R148): Stores a word to a flat 64-bit lane address. -/
  | stf32 (t : BitVec 6) (a : BitVec 6) (la : Bool) (imm : BitVec 5)
  /-- GUARD (R62): Prefix applying a predicate to the following lane word as one instruction. -/
  | guard (p : BitVec 3) (n : Bool) (w : Word)
  /-- SADD (R108): Adds two s registers. -/
  | sadd (d : BitVec 6) (a : BitVec 6) (b : BitVec 6)
  /-- SSUB (R108): Subtracts two s registers. -/
  | ssub (d : BitVec 6) (a : BitVec 6) (b : BitVec 6)
  /-- SMUL (R108): Multiplies s registers, low word. -/
  | smul (d : BitVec 6) (a : BitVec 6) (b : BitVec 6)
  /-- SMULH (R108): Multiplies s registers, signed or unsigned high word. -/
  | smulh (d : BitVec 6) (a : BitVec 6) (b : BitVec 6) (k : Bool)
  /-- SMIN (R108): Signed or unsigned minimum of s registers. -/
  | smin (d : BitVec 6) (a : BitVec 6) (b : BitVec 6) (k : Bool)
  /-- SMAX (R108): Signed or unsigned maximum of s registers. -/
  | smax (d : BitVec 6) (a : BitVec 6) (b : BitVec 6) (k : Bool)
  /-- SAND (R108): AND of s registers. -/
  | sand (d : BitVec 6) (a : BitVec 6) (b : BitVec 6)
  /-- SOR (R108): OR of s registers. -/
  | sor (d : BitVec 6) (a : BitVec 6) (b : BitVec 6)
  /-- SXOR (R108): XOR of s registers. -/
  | sxor (d : BitVec 6) (a : BitVec 6) (b : BitVec 6)
  /-- SSHL (R108): Shifts an s register left. -/
  | sshl (d : BitVec 6) (a : BitVec 6) (b : BitVec 6)
  /-- SSHR (R108): Shifts an s register right logically. -/
  | sshr (d : BitVec 6) (a : BitVec 6) (b : BitVec 6)
  /-- SSHRA (R108): Shifts an s register right arithmetically. -/
  | sshra (d : BitVec 6) (a : BitVec 6) (b : BitVec 6)
  /-- SADD64 (R108): Adds 64-bit s register pairs. -/
  | sadd64 (d : BitVec 6) (a : BitVec 6) (b : BitVec 6)
  /-- SCMP (R108): Writes 1 or 0 by a comparison of s registers. -/
  | scmp (d : BitVec 6) (a : BitVec 6) (b : BitVec 6) (k : BitVec 3)
  /-- SFADD (R108): FP32 add on s registers. -/
  | sfadd (d : BitVec 6) (a : BitVec 6) (b : BitVec 6)
  /-- SFMUL (R108): FP32 multiply on s registers. -/
  | sfmul (d : BitVec 6) (a : BitVec 6) (b : BitVec 6)
  /-- SDIVN (R109): Unsigned s register division written 40 cycles after issue. -/
  | sdivn (d : BitVec 6) (a : BitVec 6) (b : BitVec 6)
  /-- SPOPC (R108): Counts one bits of an s register. -/
  | spopc (d : BitVec 6) (a : BitVec 6)
  /-- SFF1 (R108): Finds the lowest one bit of an s register. -/
  | sff1 (d : BitVec 6) (a : BitVec 6)
  /-- SMOVI (R110): Moves a sign-extended immediate into an s register. -/
  | smovi (d : BitVec 6) (imm : BitVec 16)
  /-- SMOVHI (R110): Places an immediate in the high half of an s register. -/
  | smovhi (d : BitVec 6) (imm : BitVec 16)
  /-- SADDI (R110): Adds a sign-extended immediate to an s register. -/
  | saddi (d : BitVec 6) (imm : BitVec 16)
  /-- SANDI (R110): ANDs an s register with an immediate. -/
  | sandi (d : BitVec 6) (imm : BitVec 16)
  /-- SORI (R110): ORs an s register with an immediate. -/
  | sori (d : BitVec 6) (imm : BitVec 16)
  /-- SXORI (R110): XORs an s register with an immediate. -/
  | sxori (d : BitVec 6) (imm : BitVec 16)
  /-- SSHLI (R110): Shifts an s register left by an immediate. -/
  | sshli (d : BitVec 6) (imm : BitVec 5)
  /-- SSHRI (R110): Shifts an s register right by an immediate. -/
  | sshri (d : BitVec 6) (imm : BitVec 5)
  /-- SMULI (R110): Multiplies an s register by an immediate. -/
  | smuli (d : BitVec 6) (imm : BitVec 16)
  /-- SMOV32 (R111): Moves a 32-bit immediate word into an s register. -/
  | smov32 (d : BitVec 6) (imm : Word)
  /-- BRA_L (R111): Branches by a 32-bit word offset. -/
  | braL (imm : Word)
  /-- CALL_L (R111): Links PC + 8 and branches by a 32-bit offset. -/
  | callL (d : BitVec 6) (imm : Word)
  /-- SADD32 (R111): Adds a 32-bit immediate to an s register. -/
  | sadd32 (d : BitVec 6) (imm : Word)
  /-- BRA (R112): Branches the split unconditionally. -/
  | bra (o : BitVec 17)
  /-- BZ (R112): Branches when an s register is zero. -/
  | bz (a : BitVec 6) (o : BitVec 17)
  /-- BNZ (R112): Branches when an s register is nonzero. -/
  | bnz (a : BitVec 6) (o : BitVec 17)
  /-- CALL (R112): Links PC + 4 into a pair and branches. -/
  | call (a : BitVec 6) (o : BitVec 17)
  /-- BRX (R112): Jumps to the address in an s pair. -/
  | brx (a : BitVec 6)
  /-- BDIV (R114): Divergent branch sending predicated lanes to the target. -/
  | bdiv (p : BitVec 3) (o : BitVec 17)
  /-- BIDX (R115): Dispatches lanes through a jump table, raising JTAB on out-of-range indices. -/
  | bidx (a : BitVec 6) (o : BitVec 17)
  /-- JSET (R116): Sets the split's join PC. -/
  | jset (o : BitVec 17)
  /-- BVOTE (R112): Branches if a predicate over ACT meets all, any or none. -/
  | bvote (t : BitVec 2) (p : BitVec 3) (o : BitVec 17)
  /-- TRAP (R119): Raises TRAP with a code. -/
  | trap (c : BitVec 8)
  /-- BAR (R121): Arrives at a barrier and blocks until the phase completes. -/
  | bar (b : BitVec 6) (s : Bool) (n : BitVec 4)
  /-- BARA (R121): Arrives at a barrier and continues. -/
  | bara (b : BitVec 6) (s : Bool) (n : BitVec 4)
  /-- BARW (R121): Waits for the phase of the group's latest arrival. -/
  | barw (s : Bool) (n : BitVec 4)
  /-- FENCE (R123): Orders the group's earlier memory accesses against later ones at a scope. -/
  | fence (k : BitVec 2) (c : BitVec 3)
  /-- WAITM (R124): Parks the split until a word differs from an expected value or a limit passes. -/
  | waitm (a : BitVec 6) (b : BitVec 6) (imm : BitVec 9)
  /-- SLEEP (R125): Blocks the split for imm9 × 1024 cycles. -/
  | sleep (imm : BitVec 9)
  /-- GETSR (R126): Reads a special register into an s register. -/
  | getsr (a : BitVec 6) (n : BitVec 9)
  /-- SETSR (R126): Writes an s register into a special register under its access rules. -/
  | setsr (a : BitVec 6) (n : BitVec 9)
  /-- FMTW (R127): Writes the split's FMT from an s register. -/
  | fmtw (a : BitVec 6)
  /-- FMTW_RM (R127): Sets only FMT.rm from the immediate. -/
  | fmtwRm (r : BitVec 3)
  /-- HCLAIM (R128): Claims ownership of a hearth register or blocks until free. -/
  | hclaim (h : BitVec 4)
  /-- HREL (R128): Releases ownership of a hearth register. -/
  | hrel (h : BitVec 4)
  /-- HWR (R128): Owner writes a hearth register. -/
  | hwr (a : BitVec 6) (h : BitVec 4)
  /-- HRD (R128): Reads a hearth register. -/
  | hrd (a : BitVec 6) (h : BitVec 4)
  /-- SYSCALL (R131): Writes a service record to the ring and blocks until done. -/
  | syscall (imm : BitVec 9)
  /-- TALLOC (R162): Allocates a zeroed tile slot of a kind under the team quota. -/
  | talloc (d : BitVec 5) (k : BitVec 3)
  /-- TFREE (R163): Frees a tile slot, nulls the handle and bumps the generation. -/
  | tfree (d : BitVec 5)
  /-- TGIVE (R164): Places a handle in another group's hand-over latch. -/
  | tgive (a : BitVec 5) (g : BitVec 5)
  /-- TTAKE (R164): Takes a handle from a hand-over latch, blocking while empty. -/
  | ttake (d : BitVec 5) (g : BitVec 5)
  /-- TZERO (R165): Zeroes every byte of a tile slot. -/
  | tzero (d : BitVec 5)
  /-- MMA (R168): Matrix multiply-accumulate into an accumulator tile. -/
  | mma (d : BitVec 5) (a : BitVec 5) (b : BitVec 5) (w : Bool) (g : Bool) (r : BitVec 2)
  /-- MMAS (R172): Matrix multiply-accumulate with a 2:4 compressed A operand. -/
  | mmas (d : BitVec 5) (a : BitVec 5) (b : BitVec 5) (g : Bool) (r : BitVec 2)
  /-- TCOMP (R173): Compresses each row to 2:4 and writes metadata. -/
  | tcomp (d : BitVec 5) (a : BitVec 5) (b : BitVec 5)
  /-- TSOFT (R177): Turns scores into probabilities and updates the row state. -/
  | tsoft (d : BitVec 5) (a : BitVec 5) (b : BitVec 5) (f : Bool) (c : BitVec 3)
  /-- TSCALE (R178): Rescales an accumulator by alpha and beta from the row state. -/
  | tscale (d : BitVec 5) (a : BitVec 5) (b : BitVec 5) (n : Bool)
  /-- TNORM (R178): Divides each row by its running l. -/
  | tnorm (d : BitVec 5) (a : BitVec 5) (b : BitVec 5)
  /-- TROWRED (R179): Reduces each row into column 0. -/
  | trowred (d : BitVec 5) (a : BitVec 5) (k : BitVec 2)
  /-- TEW (R180): Element-wise tile operation with optional conversion. -/
  | tew (d : BitVec 5) (a : BitVec 5) (b : BitVec 5) (c : Bool) (f : BitVec 2) (k : BitVec 4)
  /-- TTOV (R166): Moves a tile row into a vector pair. -/
  | ttov (a : BitVec 5) (b : BitVec 5) (r : BitVec 6)
  /-- VTOT (R166): Moves a vector pair into a tile row. -/
  | vtot (d : BitVec 5) (b : BitVec 5) (r : BitVec 6)
  /-- TARV (R182): Arrives on a tile slot's barrier once earlier operations on it complete. -/
  | tarv (a : BitVec 5) (c : BitVec 6)
  /-- TAWT (R182): Waits for a tile slot barrier phase. -/
  | tawt (a : BitVec 5) (p : BitVec 7)
  /-- TSTAT (R165): Reports a slot's number, generation, kind, phase and failure flag. -/
  | tstat (a : BitVec 5) (s : BitVec 6)
  /-- SIGQ (R181): Writes sign bits of row-column dot products. -/
  | sigq (d : BitVec 5) (a : BitVec 5) (b : BitVec 5)
  /-- CPY (R185): Copies a loop nest of runs on the copy context. -/
  | cpy (q : BitVec 4) (a : BitVec 6) (b : BitVec 6) (d : BitVec 3)
  /-- TLD (R186): Loads rows of a tile from memory. -/
  | tld (q : BitVec 4) (a : BitVec 6) (t : BitVec 5) (r : BitVec 6)
  /-- TST (R186): Stores rows of a tile to memory. -/
  | tst (q : BitVec 4) (a : BitVec 6) (t : BitVec 5) (r : BitVec 6)
  /-- WBLD (R187): Loads a pack into a weight-buffer entry. -/
  | wbld (q : BitVec 4) (a : BitVec 6) (e : BitVec 5) (s : BitVec 2) (w : BitVec 2) (c : Bool)
  /-- GATH (R194): Gathers keys, values and a mask from a sequence's KV cache. -/
  | gath (q : BitVec 4) (a : BitVec 6) (t : BitVec 5) (vblk : BitVec 3) (l : Bool)
  /-- SIGF (R195): Filters tokens by signature Hamming distance into a list. -/
  | sigf (q : BitVec 4) (a : BitVec 6) (b : BitVec 6) (r : BitVec 6)
  /-- CPYF (R185): Copies between ordinary memory and the fabric unicast window. -/
  | cpyf (q : BitVec 4) (a : BitVec 6) (b : BitVec 6) (d : BitVec 3)
  /-- MCST (R188): Sends bytes to a multicast destination on the fabric context. -/
  | mcst (q : BitVec 4) (a : BitVec 6) (b : BitVec 6)
  /-- COLL (R188): Performs an in-switch collective across a collective group. -/
  | coll (q : BitVec 4) (a : BitVec 6) (k : BitVec 2)
  /-- ENC (R189): Submits a frame to an encoder session. -/
  | enc (q : BitVec 4) (a : BitVec 6) (b : BitVec 6)
  /-- BATCH (R190): Writes a future for the group's last operation on a context. -/
  | batch (q : BitVec 4) (e : BitVec 2)
  /-- WAITTL (R191): Blocks until a timeline threshold completes, raising FUTURE on failure. -/
  | waittl (q : BitVec 4) (l : BitVec 6)
  /-- TESTTL (R191): Tests a timeline threshold without blocking. -/
  | testtl (q : BitVec 4) (a : BitVec 6) (l : BitVec 6)
  /-- CANCEL (R192): Cancels unstarted operations up to a future. -/
  | cancel (q : BitVec 4)
  /-- QMOV (R193): Moves futures between q and s registers. -/
  | qmov (q : BitVec 4) (a : BitVec 6) (n : BitVec 4) (f : BitVec 2)
  /-- PAGEIN (R198): Copies tier-1 blocks into tier 0 and rewrites their entries. -/
  | pagein (q : BitVec 4) (a : BitVec 6)
  /-- RSTEP_BEGIN (R199): Opens a rope step and writes its view, acquiring earlier step ends. -/
  | rstepBegin (a : BitVec 6) (b : BitVec 6)
  /-- RSTEP_END (R199): Closes the open rope step as a package-scope release. -/
  | rstepEnd (a : BitVec 6)
  /-- RWIDEN (R201): Records a request to widen the rope. -/
  | rwiden (a : BitVec 6) (w : BitVec 6)
  /-- RNARROW (R201): Records a request to narrow the rope. -/
  | rnarrow (a : BitVec 6) (w : BitVec 6)
  /-- RVIEW (R201): Writes the current view registers without opening a step. -/
  | rview (a : BitVec 6) (b : BitVec 6)
  /-- RPUB (R202): Publishes a member's partial tiles to the exchange area. -/
  | rpub (q : BitVec 4) (a : BitVec 6) (t : BitVec 5)
  /-- KVALLOC (R196): Appends zeroed blocks to the block table. -/
  | kvalloc (a : BitVec 6) (b : BitVec 6)
  /-- KVREL (R303): Clears block entries and lowers reference counts. -/
  | kvrel (q : BitVec 4) (a : BitVec 6)
  /-- KVAPP (R197): Appends tokens from tiles into the tail. -/
  | kvapp (q : BitVec 4) (a : BitVec 6) (t : BitVec 5)
  /-- KVAPP_MEM (R197): Appends tokens from FP32 rows in memory into the tail. -/
  | kvappMem (q : BitVec 4) (a : BitVec 6)
  /-- KVFLUSH (R299): Quantises a full tail into its logical block. -/
  | kvflush (q : BitVec 4) (a : BitVec 6)
  /-- JOIN (R116): Arrives at the parent's join or has no effect. -/
  | join
  /-- EXIT (R118): Removes the split's active lanes from the group. -/
  | exit
  /-- JOINT (R117): Arrives as JOIN and starts the parent's join timer. -/
  | joint
  /-- BKPT (R119): Raises BKPT. -/
  | bkpt
  /-- YIELD (R125): Holds the split until other ready groups have issued or 64 cycles pass. -/
  | yield
  /-- SNAP (R129): Fires the common snapshot trigger when armed. -/
  | snap
  /-- RESUME (R283): Ends the trap handler and continues the team from its stopping points. -/
  | resume
  /-- LONG_LATENCY_RESULT (R81): A function-unit or divider lane result is written. -/
  | longLatencyResult
  /-- LOAD_DATA_RETURN (R137): A load lane's data return and are written to its new mapping. -/
  | loadDataReturn
  /-- STORE_PERFORMED (R140): A buffered store is performed at its coherence point and its entry freed. -/
  | storePerformed
  /-- MARKER_RELEASE (R68): All kind-L work up to a marker completes and the split resumes issue. -/
  | markerRelease
  /-- JOINT_TIMEOUT (R117): The timed join expires and merges the arrived children. -/
  | jointTimeout
  /-- MEMBER_TIMEOUT (R104): JTO cycles pass in a member-masked rendezvous and MEMBER is raised. -/
  | memberTimeout
  /-- WAITM_WAKE (R124): A write reaches the watched line or the limit passes and WAITM rechecks. -/
  | waitmWake
  /-- SLEEP_EXPIRY (R125): A SLEEP's cycles pass and the split becomes ready. -/
  | sleepExpiry
  /-- YIELD_EXPIRY (R125): A YIELD ends when the other groups have issued or 64 cycles pass. -/
  | yieldExpiry
  /-- SYSCALL_DONE (R131): The driver's done flag is seen and the results enter s0 and s1. -/
  | syscallDone
  /-- TRANSLATION_WALK (R236): A die walker completes a walk for a translation miss. -/
  | translationWalk
  /-- ENGINE_OP_START (R161): An engine operation starts once the scoreboard and number order allow. -/
  | engineOpStart
  /-- MATRIX_KSTEP (R175): The matrix engine serves one k-step of a ready operation round robin. -/
  | matrixKstep
  /-- ENGINE_OP_COMPLETE (R156): An engine operation completes done or failed and its counter advances. -/
  | engineOpComplete
  /-- TILE_SLOT_RELEASE (R163): A freed slot is zeroed and becomes free once its operations complete. -/
  | tileSlotRelease
  /-- BLOCK_RELEASE (R303): A block with zero references and pins is zeroed and returned to its pool. -/
  | blockRelease
  /-- TEAM_HALT (R278): A delivered fault freezes the group and its siblings stop within their skid. -/
  | teamHalt
  /-- HANDLER_START (R281): The trap handler starts in the faulting group once the team is halted. -/
  | handlerStart
  /-- TEAM_RETIRE (R267): A team whose groups have retired writes its completion record and advances its launch counter. -/
  | teamRetire
  /-- PREEMPTION (R285): A team is stopped at resumable points and saved to the save pool. -/
  | preemption
  /-- REGISTER_EVICT (R22): With every resident group stalled, the core evicts the lowest-priority team. -/
  | registerEvict
  /-- WAITM_EVICT (R289): A team parked in WAITM over 20 µs is evicted for a waiting team of its context. -/
  | waitmEvict
  /-- READMIT (R287): A switched-out team is restored, replayed and resumed on a core. -/
  | readmit
  /-- DOORBELL (R259): A queue doorbell makes the device read the pull word and take packets. -/
  | doorbell
  /-- NOP (R261): A packet that does nothing and completes when taken. -/
  | nop
  /-- LAUNCH (R265): Checks a launch descriptor and accepts or refuses the launch. -/
  | launch
  /-- RLAUNCH (R271): Launches a grid on the members of a sequence's current view. -/
  | rlaunch
  /-- COPY (R262): Copies bytes as a depth-0 CPY on the queue's context. -/
  | copy
  /-- SIGNAL (R262): After earlier packets complete, atomically maximises a value into a timeline word. -/
  | signal
  /-- WAIT (R262): Holds until a timeline word or engine counter reaches a value. -/
  | wait
  /-- WAIT_SATISFIED (R262): A WAIT's condition holds and it completes with an acquire. -/
  | waitSatisfied
  /-- COND (R263): Chooses between two following arms of packets by a word's value. -/
  | cond
  /-- CONTRACT (R272): Admits, replaces or removes a real-time contract. -/
  | contract
  /-- MARK (R262): Writes a value and the package time to the queue's trace slot. -/
  | mark
  /-- PACKET_START (R260): A fenced packet starts once every earlier packet of the queue has completed. -/
  | packetStart
  /-- CLUSTER_PLACE (R268): The scheduler places a waiting cluster on a rectangle of cores that can admit it. -/
  | clusterPlace
  /-- COOP_RESERVE (R270): A co-operative or roped launch reserves room for its whole grid and commits or releases. -/
  | coopReserve
  /-- TEAM_START (R313): Sector controllers start placed teams at the named package time. -/
  | teamStart
  /-- CONTRACT_PERIOD (R273): A contract period begins and may pre-empt lower classes. -/
  | contractPeriod
  /-- CONTRACT_BUDGET (R273): A launch exceeding its budget drops to priority 0 until the next period. -/
  | contractBudget
  /-- CONTRACT_DEADLINE (R273): A team still running at the deadline adds to the deadline-miss count. -/
  | contractDeadline
  /-- VIEW_COMMIT (R306): The scheduler commits a new rope view once no step is open. -/
  | viewCommit
  /-- MIGRATE_PAGE (R239): The migration engine moves a page or its home to another die. -/
  | migratePage
  /-- MIGRATION_COUNTER_HALVE (R240): Every millisecond all per-die page access counters are halved. -/
  | migrationCounterHalve
  /-- PATROL_SCRUB (R243): HBM and die cache are read through and corrected by the patrol scrub. -/
  | patrolScrub
  /-- LINK_MESSAGE (R312): A command-link message is taken from the input buffer and its permit returned. -/
  | linkMessage
  /-- ADMIN_DOORBELL (R315): The admin doorbell makes the device read the admin ring's pull word. -/
  | adminDoorbell
  /-- BIND (R317): Binds a context descriptor to a virtual function. -/
  | bind
  /-- UNBIND (R317): Removes a context. -/
  | unbind
  /-- QUEUE_SET (R317): Writes a hardware queue descriptor. -/
  | queueSet
  /-- QUEUE_RESET (R317): Clears a queue stop and moves its consumer index to the producer index. -/
  | queueReset
  /-- TABLE_UPDATE (R235): Updates a page-table entry, zeroing a newly owned page and dropping old translations. -/
  | tableUpdate
  /-- FAULT_REPLY (R319): Replays, declines or marks fatal the transactions parked on a fault token. -/
  | faultReply
  /-- SAVE_POOL (R317): Sets the save pool of a virtual function. -/
  | savePool
  /-- BLOCK_POOL (R317): Zeroes blocks and adds them to an address space's pool. -/
  | blockPool
  /-- SEQUENCE_RETIRE (R320): Retires a sequence record after its steps and operations end. -/
  | sequenceRetire
  /-- DEMOTE (R320): Moves a filled tier-0 block to tier 1 once unpinned. -/
  | demote
  /-- POLICY (R317): Sets an address space's width, migration and token-per-member policy. -/
  | policy
  /-- TAIL_SHARE (R229): Sets the tail-store share of named dies. -/
  | tailShare
  /-- SNAP_ARM (R290): Arms or disarms every snapshot bank for an address space. -/
  | snapArm
  /-- PRE_EMPT (R317): Saves every resident team of a launch. -/
  | preEmpt
  /-- DEBUG (R280): Halts or resumes every team of a launch for a debugger. -/
  | debug
  /-- FW_WRITE (R325): Verifies an image and programs it into the slot not running. -/
  | fwWrite
  /-- FW_ACTIVATE (R325): Writes a new marker copy naming a verified slot. -/
  | fwActivate
  /-- SVN_COMMIT (R326): Blows fuses up to the running image's security version. -/
  | svnCommit
  /-- ATTEST (R332): Writes a signed attestation report with the nonce. -/
  | attest
  /-- IDENTITY (R330): Writes the device identity certificate to host memory. -/
  | identity
  /-- PACKAGE_RESET (R327): The boot ROM chooses and verifies a slot and starts Ertum or enters recovery. -/
  | packageReset
  /-- RECOVERY_GO (R329): Writing go verifies the staging window's image and runs it on success. -/
  | recoveryGo
  /-- POWER_OFF (R11): Package power is removed and no part of the device answers. -/
  | powerOff
  /-- POWER_CAP (R364): A write to the power cap sets the cap in force or after the thermal cap lifts. -/
  | powerCap
  /-- THERMAL_CAP (R364): A cold-plate sensor passing 95 °C applies the 2,000 W thermal cap and raises vector 2. -/
  | thermalCap
  /-- THERMAL_CAP_RELEASE (R364): After one second with every sensor below 85 °C the thermal cap lifts. -/
  | thermalCapRelease
  /-- THERMAL_SHUTDOWN (R364): At 105 °C the hardware removes package power. -/
  | thermalShutdown
  /-- CXL_PORT_FAILURE (R360): A failed CXL port makes tier-1 accesses to its range unserviceable. -/
  | cxlPortFailure
  /-- SNAPSHOT_TRIGGER (R290): A host register write fires the trigger and armed banks latch and disarm. -/
  | snapshotTrigger
  /-- FABRIC_CONTEXT_CREATE (R336): Writing 1 creates the staged fabric context and assigns its identifier. -/
  | fabricContextCreate
  /-- FABRIC_CONTEXT_DESTROY (R358): Writing 2 destroys the named fabric context. -/
  | fabricContextDestroy
  /-- EXPORT_TABLE_WRITE (R335): An export entry write completes after packets under the old entry are performed. -/
  | exportTableWrite
  /-- SESSION_OPEN (R361): Setting valid in a session entry opens and places an encoder session or refuses it. -/
  | sessionOpen
  /-- SESSION_CLOSE (R362): Clearing valid closes a session, cancelling unstarted frames. -/
  | sessionClose
  /-- REGISTER_WRITE (R358): A write to a host register without behaviour of its own stores the value. -/
  | registerWrite
  /-- FLIT_RECEIVE (R338): A flit is checked by CRC and sequence and replay is asked on error. -/
  | flitReceive
  /-- LINK_RETRAIN (R353): Sixteen replays of one flit send the link back to training. -/
  | linkRetrain
  /-- LOSS_OF_SIGNAL (R353): Loss of signal sends an UP link to training and resends its packets elsewhere. -/
  | lossOfSignal
  /-- CONFIGURATION_RECORD (R352): A received configuration record is matched to move the link to UP, HOLD, FALLBACK or FAILED. -/
  | configurationRecord
  /-- PORT_REENABLE (R353): The driver re-enables a port and its link starts training. -/
  | portReenable
  /-- READ (R345): A target checks and performs a fabric read and returns a response. -/
  | read
  /-- WRITE (R345): A target checks and performs a fabric write and acknowledges. -/
  | write
  /-- ATOMIC (R345): A target applies fabric atomic entries in order and returns old values. -/
  | atomic
  /-- REDUCTION (R345): A target applies fabric reduction entries and acknowledges. -/
  | reduction
  /-- MULTICAST_WRITE (R349): A member performs its copy of a multicast write and answers. -/
  | multicastWrite
  /-- MULTICAST_REDUCTION (R349): A member performs its copy of a multicast reduction and answers. -/
  | multicastReduction
  /-- TRIMMED_HEADER (R346): A target receiving a trimmed header sends a resend request or treats it as a duplicate. -/
  | trimmedHeader
  /-- READ_RESPONSE (R341): The source completes a fabric read with the returned words or a status. -/
  | readResponse
  /-- ACK (R341): The source completes an acknowledged packet. -/
  | ack
  /-- ATOMIC_RESPONSE (R341): The source writes old values of a fabric atomic. -/
  | atomicResponse
  /-- NEGATIVE (R341): The source completes a refused packet with FABRIC. -/
  | negative
  /-- RESEND_REQUEST (R347): The source schedules a resend after the pacing hint. -/
  | resendRequest
  /-- RESEND (R347): After the pacing delay the source sends the packet again on a fresh plane. -/
  | resend
  /-- AGGREGATED_ACK (R349): The source adds merged counts and negative entries until they reach the member count. -/
  | aggregatedAck
  /-- COLLECTIVE_RESULT (R351): A member writes a collective result chunk at its destination. -/
  | collectiveResult
  /-- FABRIC_TIMEOUT (R347): After 50 µs without answer a unicast packet is resent on the next plane or completed unreachable. -/
  | fabricTimeout
  /-- MULTICAST_TIMEOUT (R349): After 50 µs short of the member count a multicast packet is resent or completed. -/
  | multicastTimeout
  /-- COLLECTIVE_TIMEOUT (R351): The fabric context's collective timeout passes and the COLL fails with status 6. -/
  | collectiveTimeout
  /-- SOFT_ERROR (R243): A bit error strikes a word of an SRAM array or HBM, which is later corrected or poisoned. -/
  | softError
  /-- HOST_LINK_DOWN (R357): A host PCIe link goes down and tier-2 traffic moves to the other link. -/
  | hostLinkDown
  /-- HOST_LINK_UP (R357): A host PCIe link that was down returns and carries its share of tier-2 traffic again. -/
  | hostLinkUp
  /-- HOLD_END (R353): A fabric link's HOLD period ends and the link trains again with the attempt number raised by one. -/
  | holdEnd
  /-- RESERVED_PACKET_TYPE (R340): A received packet of a reserved type, or with a nonzero reserved field, is dropped and counted in the port's error count. -/
  | reservedPacketType
  /-- ATOMIC_RESULT_RETURN (R146): An ATOMG or ATOMP lane's old value returns from the coherence point and is written to t. -/
  | atomicResultReturn
  /-- PAD_WORD_WRITTEN (R139): A pad store's word is written at the pad's core, or a sibling core's refusal returns and switches the lane off. -/
  | padWordWritten
  /-- VIEW_REGISTERS_WRITTEN (R199): The package scheduler's answer to RSTEP.begin, RVIEW or KVALLOC arrives and the result registers are written, completing the instruction. -/
  | viewRegistersWritten
deriving DecidableEq, Repr

end Sys2Proof
end

