-- ==== Sys2Proof/WellFormed.lean ====
section
/-! DEFINITION. The limits an instruction word must meet beyond its fixed bits: pairs and quads (R60), reserved codes of
sub-fields (R72, R73, R74, R77), descriptor ranges of the engine instructions (R160, R183, R187). A word that misses one
is ILLEGAL (R64). Event rows have no word, so nothing limits them here. -/
namespace Sys2Proof

/-- A register field that names the low register of a pair (R60). -/
def ev {n : Nat} (x : BitVec n) : Bool := x.toNat % 2 == 0

/-- The instruction meets the limits of R60, R72 to R77, R160 and R183. -/
def Instr.wellFormed : Instr → Bool
  | .iadd _ _ _ _ _ _ => true
  | .isub _ _ _ _ _ _ => true
  | .imul _ _ _ _ _ _ => true
  | .imuln _ _ _ _ _ _ => true
  | .imin _ _ _ _ _ _ => true
  | .imax _ _ _ _ _ _ => true
  | .and _ _ _ _ _ => true
  | .or _ _ _ _ _ => true
  | .xor _ _ _ _ _ => true
  | .andn _ _ _ _ _ => true
  | .shl _ _ _ _ _ => true
  | .shr _ _ _ _ _ _ => true
  | .rot _ _ _ _ _ => true
  | .bfx _ _ _ _ _ _ => true
  | .idivn _ _ _ _ _ _ => true
  | .fadd _ _ _ _ _ => true
  | .fsub _ _ _ _ _ => true
  | .fmul _ _ _ _ _ => true
  | .fmin _ _ _ _ _ _ => true
  | .fmax _ _ _ _ _ _ => true
  | .hadd2 _ _ _ _ _ => true
  | .hsub2 _ _ _ _ _ => true
  | .hmul2 _ _ _ _ _ => true
  | .hmin2 _ _ _ _ _ => true
  | .hmax2 _ _ _ _ _ => true
  | .pack2 _ _ _ _ _ _ => true
  | .iadd64 d a b _ _ x => ev d && ev a && (x || ev b)
  | .isub64 d a b _ _ => ev d && ev a && ev b
  | .fdiv _ _ _ _ _ => true
  | .movi _ _ => true
  | .movhi _ _ => true
  | .iaddi _ _ => true
  | .imuli _ _ => true
  | .andi _ _ => true
  | .ori _ _ => true
  | .xori _ _ => true
  | .shli _ _ => true
  | .shri _ _ => true
  | .shrai _ _ => true
  | .faddi _ _ => true
  | .fmuli _ _ => true
  | .fmovi _ _ => true
  | .hadd2i _ _ => true
  | .hmul2i _ _ => true
  | .hmovi2 _ _ => true
  | .qmovi4 _ _ => true
  | .fmini _ _ => true
  | .fmaxi _ _ => true
  | .ffma _ _ _ _ _ r => r.toNat ≤ 5
  | .fnma _ _ _ _ _ r => r.toNat ≤ 5
  | .hfma2 _ _ _ _ _ => true
  | .imad _ _ _ _ _ _ => true
  | .dot4 _ _ _ _ _ => true
  | .dot8 _ _ _ _ _ => true
  | .dot2h _ _ _ _ _ => true
  | .bfi _ _ _ _ _ => true
  | .permb _ _ _ _ _ => true
  | .sel _ _ _ _ _ _ => true
  | .fclamp _ _ _ _ _ => true
  | .imadw d _ _ _ _ => ev d
  | .mov _ _ _ => true
  | .fabs _ _ _ => true
  | .fneg _ _ _ => true
  | .ineg _ _ _ => true
  | .not _ _ _ => true
  | .popc _ _ _ => true
  | .clz _ _ _ => true
  | .brev _ _ _ => true
  | .frcp _ _ _ => true
  | .frsq _ _ _ => true
  | .fsqrt _ _ _ => true
  | .fexp2 _ _ _ => true
  | .flog2 _ _ _ => true
  | .fsin _ _ _ => true
  | .fcos _ _ _ => true
  | .ftanh _ _ _ => true
  | .ftoi _ _ _ => true
  | .itof _ _ _ => true
  | .fcvt _ _ _ _ => true
  | .hcvt _ _ _ _ => true
  | .qcvt _ _ _ _ => true
  | .qunp _ _ _ _ => true
  | .q4cvt _ _ _ _ => true
  | .q4unp _ _ _ _ => true
  | .frnd _ _ _ _ => true
  | .fclass _ _ _ => true
  | .laneid _ => true
  | .icmp p _ _ _ _ _ k => p != 7 && k.toNat ≤ 5
  | .icmpn p _ _ _ _ _ k => p != 7 && k.toNat ≤ 5
  | .fcmp p _ _ _ _ _ k => p != 7 && k.toNat ≤ 6
  | .testb p _ _ _ _ _ => p != 7
  | .plog p _ _ _ _ => p != 7
  | .scan _ _ _ _ _ => true
  | .scanx _ _ _ _ _ => true
  | .reduce _ _ _ _ => true
  | .prevLane _ _ _ _ => true
  | .nextLane _ _ _ _ => true
  | .shup _ _ s _ g => !g || s.toNat ≤ 62
  | .shdn _ _ s _ g => !g || s.toNat ≤ 62
  | .bfly _ _ s _ g => !g || s.toNat ≤ 62
  | .perm _ _ s _ g => if g then s.toNat ≤ 62 else s == 0
  | .bcastl _ _ s _ g => !g || s.toNat ≤ 62
  | .vote _ _ => true
  | .matchEq _ _ _ _ => true
  | .gets _ _ => true
  | .puts _ _ _ => true
  | .ldg8n _ _ _ _ _ => true
  | .ldg8i _ _ _ _ _ => true
  | .ldg16n _ _ _ _ _ => true
  | .ldg16i _ _ _ _ _ => true
  | .ldg32 _ _ _ _ _ => true
  | .ldg64 t _ _ _ _ => ev t
  | .ldg128 t _ _ _ _ => t.toNat % 4 == 0
  | .stg8 _ _ _ _ _ => true
  | .stg16 _ _ _ _ _ => true
  | .stg32 _ _ _ _ _ => true
  | .stg64 t _ _ _ _ => ev t
  | .stg128 t _ _ _ _ => t.toNat % 4 == 0
  | .ldp32 _ _ _ _ _ => true
  | .ldp64 t _ _ _ _ => ev t
  | .ldp128 t _ _ _ _ => t.toNat % 4 == 0
  | .stp32 _ _ _ _ _ => true
  | .stp64 t _ _ _ _ => ev t
  | .stp128 t _ _ _ _ => t.toNat % 4 == 0
  | .atomg t _ _ _ c => c.toNat ≤ 13 && (c != 12 || ev t)
  | .redg _ _ _ _ c => c.toNat ≤ 13 && c != 11 && c != 12
  | .atomp t _ _ _ c => c.toNat ≤ 13 && (c != 12 || ev t)
  | .prefg _ _ _ _ => true
  | .lda32 _ _ _ _ c => c.toNat ≤ 5
  | .lda64 t _ _ _ c => ev t && c.toNat ≤ 5
  | .stl32 _ _ _ _ c => c.toNat ≤ 5
  | .stl64 t _ _ _ c => ev t && c.toNat ≤ 5
  | .ldf32 _ a _ _ => ev a
  | .stf32 _ a _ _ => ev a
  | .guard _ _ w => fld w.toNat 31 1 == 0 && fld w.toNat 27 3 != 7
  | .sadd _ _ _ => true
  | .ssub _ _ _ => true
  | .smul _ _ _ => true
  | .smulh _ _ _ _ => true
  | .smin _ _ _ _ => true
  | .smax _ _ _ _ => true
  | .sand _ _ _ => true
  | .sor _ _ _ => true
  | .sxor _ _ _ => true
  | .sshl _ _ _ => true
  | .sshr _ _ _ => true
  | .sshra _ _ _ => true
  | .sadd64 d a b => ev d && ev a && ev b
  | .scmp _ _ _ _ => true
  | .sfadd _ _ _ => true
  | .sfmul _ _ _ => true
  | .sdivn _ _ _ => true
  | .spopc _ _ => true
  | .sff1 _ _ => true
  | .smovi _ _ => true
  | .smovhi _ _ => true
  | .saddi _ _ => true
  | .sandi _ _ => true
  | .sori _ _ => true
  | .sxori _ _ => true
  | .sshli _ _ => true
  | .sshri _ _ => true
  | .smuli _ _ => true
  | .smov32 _ _ => true
  | .braL _ => true
  | .callL d _ => ev d
  | .sadd32 _ _ => true
  | .bra _ => true
  | .bz _ _ => true
  | .bnz _ _ => true
  | .call a _ => ev a
  | .brx a => ev a
  | .bdiv _ _ => true
  | .bidx _ _ => true
  | .jset _ => true
  | .bvote t _ _ => t != 3
  | .trap _ => true
  | .bar b s n => if s then b.toNat ≤ 12 && n.toNat ≤ 7 else b.toNat ≤ 32
  | .bara b s n => if s then b.toNat ≤ 12 && n.toNat ≤ 7 else b.toNat ≤ 32
  | .barw s n => !s || n.toNat ≤ 7
  | .fence _ c => c.toNat ≤ 5
  | .waitm a _ _ => ev a
  | .sleep _ => true
  | .getsr _ _ => true
  | .setsr _ _ => true
  | .fmtw _ => true
  | .fmtwRm _ => true
  | .hclaim _ => true
  | .hrel _ => true
  | .hwr _ _ => true
  | .hrd _ _ => true
  | .syscall _ => true
  | .talloc _ k => k.toNat ≤ 5
  | .tfree _ => true
  | .tgive _ _ => true
  | .ttake _ _ => true
  | .tzero _ => true
  | .mma _ _ _ _ _ _ => true
  | .mmas _ a _ _ _ => ev a
  | .tcomp _ _ _ => true
  | .tsoft _ _ _ _ _ => true
  | .tscale _ a _ n => !n || a == 0
  | .tnorm _ _ _ => true
  | .trowred _ _ _ => true
  | .tew _ _ b _ f k => (k.toNat ≤ 5 && f.toNat ≤ 2) || ((k == 6 || k == 7) && f == 3 && b == 0) || (k == 8 && f == 0)
  | .ttov _ _ _ => true
  | .vtot _ _ _ => true
  | .tarv _ c => 1 ≤ c.toNat && c.toNat ≤ 32
  | .tawt _ _ => true
  | .tstat _ s => ev s
  | .sigq _ _ _ => true
  | .cpy _ a _ d => ev a && d.toNat ≤ 5 && a.toNat + 4 + 3 * d.toNat ≤ 64
  | .tld _ a _ _ => ev a && a.toNat + 3 ≤ 64
  | .tst _ a _ _ => ev a && a.toNat + 3 ≤ 64
  | .wbld _ a _ s w c => ev a && w != 3 && s != 3 && (s == 0 || (c && w != 0))
  | .gath _ a t _ l => ev a && t.toNat ≤ 29 && a.toNat + (if l then 6 else 4) ≤ 64
  | .sigf _ a b _ => ev a && ev b && a.toNat + 7 ≤ 64
  | .cpyf _ a _ d => ev a && d.toNat ≤ 5 && a.toNat + 4 + 3 * d.toNat ≤ 64
  | .mcst _ a _ => ev a && a.toNat + 4 ≤ 64
  | .coll _ a k => ev a && k != 3 && a.toNat + 6 ≤ 64
  | .enc _ a _ => ev a
  | .batch _ e => e != 3
  | .waittl _ _ => true
  | .testtl _ _ _ => true
  | .cancel _ => true
  | .qmov _ a n f => (f == 0 || f == 1) && ev a && n == 0 || f == 2 && a == 0
  | .pagein _ a => ev a && a.toNat + 4 ≤ 64
  | .rstepBegin a b => ev a && ev b && b.toNat ≤ 58
  | .rstepEnd a => ev a
  | .rwiden a w => ev a && 1 ≤ w.toNat && w.toNat ≤ 8
  | .rnarrow a w => ev a && 1 ≤ w.toNat && w.toNat ≤ 8
  | .rview a b => ev a && ev b && b.toNat ≤ 58
  | .rpub _ a t => ev a && t.toNat ≤ 30
  | .kvalloc a _ => ev a && a.toNat + 3 ≤ 64
  | .kvrel _ a => ev a && a.toNat + 4 ≤ 64
  | .kvapp _ a t => ev a && t.toNat ≤ 30 && a.toNat + 3 ≤ 64
  | .kvappMem _ a => ev a && a.toNat + 6 ≤ 64
  | .kvflush _ a => ev a
  | .join => true
  | .exit => true
  | .joint => true
  | .bkpt => true
  | .yield => true
  | .snap => true
  | .resume => true
  | .longLatencyResult => true
  | .loadDataReturn => true
  | .storePerformed => true
  | .markerRelease => true
  | .jointTimeout => true
  | .memberTimeout => true
  | .waitmWake => true
  | .sleepExpiry => true
  | .yieldExpiry => true
  | .syscallDone => true
  | .translationWalk => true
  | .engineOpStart => true
  | .matrixKstep => true
  | .engineOpComplete => true
  | .tileSlotRelease => true
  | .blockRelease => true
  | .teamHalt => true
  | .handlerStart => true
  | .teamRetire => true
  | .preemption => true
  | .registerEvict => true
  | .waitmEvict => true
  | .readmit => true
  | .doorbell => true
  | .nop => true
  | .launch => true
  | .rlaunch => true
  | .copy => true
  | .signal => true
  | .wait => true
  | .waitSatisfied => true
  | .cond => true
  | .contract => true
  | .mark => true
  | .packetStart => true
  | .clusterPlace => true
  | .coopReserve => true
  | .teamStart => true
  | .contractPeriod => true
  | .contractBudget => true
  | .contractDeadline => true
  | .viewCommit => true
  | .migratePage => true
  | .migrationCounterHalve => true
  | .patrolScrub => true
  | .linkMessage => true
  | .adminDoorbell => true
  | .bind => true
  | .unbind => true
  | .queueSet => true
  | .queueReset => true
  | .tableUpdate => true
  | .faultReply => true
  | .savePool => true
  | .blockPool => true
  | .sequenceRetire => true
  | .demote => true
  | .policy => true
  | .tailShare => true
  | .snapArm => true
  | .preEmpt => true
  | .debug => true
  | .fwWrite => true
  | .fwActivate => true
  | .svnCommit => true
  | .attest => true
  | .identity => true
  | .packageReset => true
  | .recoveryGo => true
  | .powerOff => true
  | .powerCap => true
  | .thermalCap => true
  | .thermalCapRelease => true
  | .thermalShutdown => true
  | .cxlPortFailure => true
  | .snapshotTrigger => true
  | .fabricContextCreate => true
  | .fabricContextDestroy => true
  | .exportTableWrite => true
  | .sessionOpen => true
  | .sessionClose => true
  | .registerWrite => true
  | .flitReceive => true
  | .linkRetrain => true
  | .lossOfSignal => true
  | .configurationRecord => true
  | .portReenable => true
  | .read => true
  | .write => true
  | .atomic => true
  | .reduction => true
  | .multicastWrite => true
  | .multicastReduction => true
  | .trimmedHeader => true
  | .readResponse => true
  | .ack => true
  | .atomicResponse => true
  | .negative => true
  | .resendRequest => true
  | .resend => true
  | .aggregatedAck => true
  | .collectiveResult => true
  | .fabricTimeout => true
  | .multicastTimeout => true
  | .collectiveTimeout => true
  | .softError => true
  | .hostLinkDown => true
  | .hostLinkUp => true
  | .holdEnd => true
  | .reservedPacketType => true
  | .atomicResultReturn => true
  | .padWordWritten => true
  | .viewRegistersWritten => true

/-- The row has a word encoding; the event rows have none. -/
def Instr.isWord : Instr → Bool
  | .iadd _ _ _ _ _ _ => true
  | .isub _ _ _ _ _ _ => true
  | .imul _ _ _ _ _ _ => true
  | .imuln _ _ _ _ _ _ => true
  | .imin _ _ _ _ _ _ => true
  | .imax _ _ _ _ _ _ => true
  | .and _ _ _ _ _ => true
  | .or _ _ _ _ _ => true
  | .xor _ _ _ _ _ => true
  | .andn _ _ _ _ _ => true
  | .shl _ _ _ _ _ => true
  | .shr _ _ _ _ _ _ => true
  | .rot _ _ _ _ _ => true
  | .bfx _ _ _ _ _ _ => true
  | .idivn _ _ _ _ _ _ => true
  | .fadd _ _ _ _ _ => true
  | .fsub _ _ _ _ _ => true
  | .fmul _ _ _ _ _ => true
  | .fmin _ _ _ _ _ _ => true
  | .fmax _ _ _ _ _ _ => true
  | .hadd2 _ _ _ _ _ => true
  | .hsub2 _ _ _ _ _ => true
  | .hmul2 _ _ _ _ _ => true
  | .hmin2 _ _ _ _ _ => true
  | .hmax2 _ _ _ _ _ => true
  | .pack2 _ _ _ _ _ _ => true
  | .iadd64 _ _ _ _ _ _ => true
  | .isub64 _ _ _ _ _ => true
  | .fdiv _ _ _ _ _ => true
  | .movi _ _ => true
  | .movhi _ _ => true
  | .iaddi _ _ => true
  | .imuli _ _ => true
  | .andi _ _ => true
  | .ori _ _ => true
  | .xori _ _ => true
  | .shli _ _ => true
  | .shri _ _ => true
  | .shrai _ _ => true
  | .faddi _ _ => true
  | .fmuli _ _ => true
  | .fmovi _ _ => true
  | .hadd2i _ _ => true
  | .hmul2i _ _ => true
  | .hmovi2 _ _ => true
  | .qmovi4 _ _ => true
  | .fmini _ _ => true
  | .fmaxi _ _ => true
  | .ffma _ _ _ _ _ _ => true
  | .fnma _ _ _ _ _ _ => true
  | .hfma2 _ _ _ _ _ => true
  | .imad _ _ _ _ _ _ => true
  | .dot4 _ _ _ _ _ => true
  | .dot8 _ _ _ _ _ => true
  | .dot2h _ _ _ _ _ => true
  | .bfi _ _ _ _ _ => true
  | .permb _ _ _ _ _ => true
  | .sel _ _ _ _ _ _ => true
  | .fclamp _ _ _ _ _ => true
  | .imadw _ _ _ _ _ => true
  | .mov _ _ _ => true
  | .fabs _ _ _ => true
  | .fneg _ _ _ => true
  | .ineg _ _ _ => true
  | .not _ _ _ => true
  | .popc _ _ _ => true
  | .clz _ _ _ => true
  | .brev _ _ _ => true
  | .frcp _ _ _ => true
  | .frsq _ _ _ => true
  | .fsqrt _ _ _ => true
  | .fexp2 _ _ _ => true
  | .flog2 _ _ _ => true
  | .fsin _ _ _ => true
  | .fcos _ _ _ => true
  | .ftanh _ _ _ => true
  | .ftoi _ _ _ => true
  | .itof _ _ _ => true
  | .fcvt _ _ _ _ => true
  | .hcvt _ _ _ _ => true
  | .qcvt _ _ _ _ => true
  | .qunp _ _ _ _ => true
  | .q4cvt _ _ _ _ => true
  | .q4unp _ _ _ _ => true
  | .frnd _ _ _ _ => true
  | .fclass _ _ _ => true
  | .laneid _ => true
  | .icmp _ _ _ _ _ _ _ => true
  | .icmpn _ _ _ _ _ _ _ => true
  | .fcmp _ _ _ _ _ _ _ => true
  | .testb _ _ _ _ _ _ => true
  | .plog _ _ _ _ _ => true
  | .scan _ _ _ _ _ => true
  | .scanx _ _ _ _ _ => true
  | .reduce _ _ _ _ => true
  | .prevLane _ _ _ _ => true
  | .nextLane _ _ _ _ => true
  | .shup _ _ _ _ _ => true
  | .shdn _ _ _ _ _ => true
  | .bfly _ _ _ _ _ => true
  | .perm _ _ _ _ _ => true
  | .bcastl _ _ _ _ _ => true
  | .vote _ _ => true
  | .matchEq _ _ _ _ => true
  | .gets _ _ => true
  | .puts _ _ _ => true
  | .ldg8n _ _ _ _ _ => true
  | .ldg8i _ _ _ _ _ => true
  | .ldg16n _ _ _ _ _ => true
  | .ldg16i _ _ _ _ _ => true
  | .ldg32 _ _ _ _ _ => true
  | .ldg64 _ _ _ _ _ => true
  | .ldg128 _ _ _ _ _ => true
  | .stg8 _ _ _ _ _ => true
  | .stg16 _ _ _ _ _ => true
  | .stg32 _ _ _ _ _ => true
  | .stg64 _ _ _ _ _ => true
  | .stg128 _ _ _ _ _ => true
  | .ldp32 _ _ _ _ _ => true
  | .ldp64 _ _ _ _ _ => true
  | .ldp128 _ _ _ _ _ => true
  | .stp32 _ _ _ _ _ => true
  | .stp64 _ _ _ _ _ => true
  | .stp128 _ _ _ _ _ => true
  | .atomg _ _ _ _ _ => true
  | .redg _ _ _ _ _ => true
  | .atomp _ _ _ _ _ => true
  | .prefg _ _ _ _ => true
  | .lda32 _ _ _ _ _ => true
  | .lda64 _ _ _ _ _ => true
  | .stl32 _ _ _ _ _ => true
  | .stl64 _ _ _ _ _ => true
  | .ldf32 _ _ _ _ => true
  | .stf32 _ _ _ _ => true
  | .guard _ _ _ => true
  | .sadd _ _ _ => true
  | .ssub _ _ _ => true
  | .smul _ _ _ => true
  | .smulh _ _ _ _ => true
  | .smin _ _ _ _ => true
  | .smax _ _ _ _ => true
  | .sand _ _ _ => true
  | .sor _ _ _ => true
  | .sxor _ _ _ => true
  | .sshl _ _ _ => true
  | .sshr _ _ _ => true
  | .sshra _ _ _ => true
  | .sadd64 _ _ _ => true
  | .scmp _ _ _ _ => true
  | .sfadd _ _ _ => true
  | .sfmul _ _ _ => true
  | .sdivn _ _ _ => true
  | .spopc _ _ => true
  | .sff1 _ _ => true
  | .smovi _ _ => true
  | .smovhi _ _ => true
  | .saddi _ _ => true
  | .sandi _ _ => true
  | .sori _ _ => true
  | .sxori _ _ => true
  | .sshli _ _ => true
  | .sshri _ _ => true
  | .smuli _ _ => true
  | .smov32 _ _ => true
  | .braL _ => true
  | .callL _ _ => true
  | .sadd32 _ _ => true
  | .bra _ => true
  | .bz _ _ => true
  | .bnz _ _ => true
  | .call _ _ => true
  | .brx _ => true
  | .bdiv _ _ => true
  | .bidx _ _ => true
  | .jset _ => true
  | .bvote _ _ _ => true
  | .trap _ => true
  | .bar _ _ _ => true
  | .bara _ _ _ => true
  | .barw _ _ => true
  | .fence _ _ => true
  | .waitm _ _ _ => true
  | .sleep _ => true
  | .getsr _ _ => true
  | .setsr _ _ => true
  | .fmtw _ => true
  | .fmtwRm _ => true
  | .hclaim _ => true
  | .hrel _ => true
  | .hwr _ _ => true
  | .hrd _ _ => true
  | .syscall _ => true
  | .talloc _ _ => true
  | .tfree _ => true
  | .tgive _ _ => true
  | .ttake _ _ => true
  | .tzero _ => true
  | .mma _ _ _ _ _ _ => true
  | .mmas _ _ _ _ _ => true
  | .tcomp _ _ _ => true
  | .tsoft _ _ _ _ _ => true
  | .tscale _ _ _ _ => true
  | .tnorm _ _ _ => true
  | .trowred _ _ _ => true
  | .tew _ _ _ _ _ _ => true
  | .ttov _ _ _ => true
  | .vtot _ _ _ => true
  | .tarv _ _ => true
  | .tawt _ _ => true
  | .tstat _ _ => true
  | .sigq _ _ _ => true
  | .cpy _ _ _ _ => true
  | .tld _ _ _ _ => true
  | .tst _ _ _ _ => true
  | .wbld _ _ _ _ _ _ => true
  | .gath _ _ _ _ _ => true
  | .sigf _ _ _ _ => true
  | .cpyf _ _ _ _ => true
  | .mcst _ _ _ => true
  | .coll _ _ _ => true
  | .enc _ _ _ => true
  | .batch _ _ => true
  | .waittl _ _ => true
  | .testtl _ _ _ => true
  | .cancel _ => true
  | .qmov _ _ _ _ => true
  | .pagein _ _ => true
  | .rstepBegin _ _ => true
  | .rstepEnd _ => true
  | .rwiden _ _ => true
  | .rnarrow _ _ => true
  | .rview _ _ => true
  | .rpub _ _ _ => true
  | .kvalloc _ _ => true
  | .kvrel _ _ => true
  | .kvapp _ _ _ => true
  | .kvappMem _ _ => true
  | .kvflush _ _ => true
  | .join => true
  | .exit => true
  | .joint => true
  | .bkpt => true
  | .yield => true
  | .snap => true
  | .resume => true
  | .longLatencyResult => false
  | .loadDataReturn => false
  | .storePerformed => false
  | .markerRelease => false
  | .jointTimeout => false
  | .memberTimeout => false
  | .waitmWake => false
  | .sleepExpiry => false
  | .yieldExpiry => false
  | .syscallDone => false
  | .translationWalk => false
  | .engineOpStart => false
  | .matrixKstep => false
  | .engineOpComplete => false
  | .tileSlotRelease => false
  | .blockRelease => false
  | .teamHalt => false
  | .handlerStart => false
  | .teamRetire => false
  | .preemption => false
  | .registerEvict => false
  | .waitmEvict => false
  | .readmit => false
  | .doorbell => false
  | .nop => false
  | .launch => false
  | .rlaunch => false
  | .copy => false
  | .signal => false
  | .wait => false
  | .waitSatisfied => false
  | .cond => false
  | .contract => false
  | .mark => false
  | .packetStart => false
  | .clusterPlace => false
  | .coopReserve => false
  | .teamStart => false
  | .contractPeriod => false
  | .contractBudget => false
  | .contractDeadline => false
  | .viewCommit => false
  | .migratePage => false
  | .migrationCounterHalve => false
  | .patrolScrub => false
  | .linkMessage => false
  | .adminDoorbell => false
  | .bind => false
  | .unbind => false
  | .queueSet => false
  | .queueReset => false
  | .tableUpdate => false
  | .faultReply => false
  | .savePool => false
  | .blockPool => false
  | .sequenceRetire => false
  | .demote => false
  | .policy => false
  | .tailShare => false
  | .snapArm => false
  | .preEmpt => false
  | .debug => false
  | .fwWrite => false
  | .fwActivate => false
  | .svnCommit => false
  | .attest => false
  | .identity => false
  | .packageReset => false
  | .recoveryGo => false
  | .powerOff => false
  | .powerCap => false
  | .thermalCap => false
  | .thermalCapRelease => false
  | .thermalShutdown => false
  | .cxlPortFailure => false
  | .snapshotTrigger => false
  | .fabricContextCreate => false
  | .fabricContextDestroy => false
  | .exportTableWrite => false
  | .sessionOpen => false
  | .sessionClose => false
  | .registerWrite => false
  | .flitReceive => false
  | .linkRetrain => false
  | .lossOfSignal => false
  | .configurationRecord => false
  | .portReenable => false
  | .read => false
  | .write => false
  | .atomic => false
  | .reduction => false
  | .multicastWrite => false
  | .multicastReduction => false
  | .trimmedHeader => false
  | .readResponse => false
  | .ack => false
  | .atomicResponse => false
  | .negative => false
  | .resendRequest => false
  | .resend => false
  | .aggregatedAck => false
  | .collectiveResult => false
  | .fabricTimeout => false
  | .multicastTimeout => false
  | .collectiveTimeout => false
  | .softError => false
  | .hostLinkDown => false
  | .hostLinkUp => false
  | .holdEnd => false
  | .reservedPacketType => false
  | .atomicResultReturn => false
  | .padWordWritten => false
  | .viewRegistersWritten => false

end Sys2Proof
end

