-- ==== Sys2Proof/Decode.lean ====
section
/-! DEFINITION. The decoder, total on any bytes and rejecting by name (R57 to R64), and after it the encoder, both from the
encoding tables of R58, R59, R71, R76 and the base words of R80, R107, R132, R160 and R183. -/
namespace Sys2Proof

/-- Why bytes are no instruction. Every one of these is ILLEGAL at issue (R64), but for `truncated`, which only a list of
bytes shorter than the instruction meets. -/
inductive DecodeError where
  /-- D = 1 with F = 111 (R59). -/
  | reservedFormat
  /-- an opcode that is not assigned in its format (R71, R76) -/
  | unassigned (format : String) (op : Nat)
  /-- a nonzero reserved field (R60, R70) -/
  | reservedField
  /-- a register limit or a reserved code (R60, R72 to R77) -/
  | limit
  /-- a GUARD misuse (R62) -/
  | guardMisuse
  /-- fewer bytes than the instruction has -/
  | truncated
deriving DecidableEq, Repr

/-- Bit i of a word. -/
def bit (w i : Nat) : Bool := fld w i 1 == 1

/-- The n bits of a word from bit lo up. -/
def bv (n w lo : Nat) : BitVec n := BitVec.ofNat n (w / 2 ^ lo)

/-- A row applies when its fixed fields hold their values and the instruction meets its limits. -/
def row (w : Nat) (fixed : List (Nat × Nat × Nat)) (i : Instr) : Except DecodeError Instr :=
  if fixed.all fun f => fld w f.1 f.2.1 == f.2.2 then
    if i.wellFormed then .ok i else .error .limit
  else .error .reservedField

/-- Format LR (R58, R71): the row of each opcode, with its fixed bits below the opcode. -/
def decodeLR (w : Nat) : Except DecodeError Instr :=
  match fld w 21 6 with
  | 0 => row w [] (.iadd (bv 6 w 15) (bv 6 w 9) (bv 6 w 3) (bit w 2) (bit w 1) (bit w 0))
  | 1 => row w [] (.isub (bv 6 w 15) (bv 6 w 9) (bv 6 w 3) (bit w 2) (bit w 1) (bit w 0))
  | 2 => row w [] (.imul (bv 6 w 15) (bv 6 w 9) (bv 6 w 3) (bit w 2) (bit w 1) (bit w 0))
  | 3 => row w [] (.imuln (bv 6 w 15) (bv 6 w 9) (bv 6 w 3) (bit w 2) (bit w 1) (bit w 0))
  | 4 => row w [] (.imin (bv 6 w 15) (bv 6 w 9) (bv 6 w 3) (bit w 2) (bit w 1) (bit w 0))
  | 5 => row w [] (.imax (bv 6 w 15) (bv 6 w 9) (bv 6 w 3) (bit w 2) (bit w 1) (bit w 0))
  | 6 => row w [(0, 1, 0)] (.and (bv 6 w 15) (bv 6 w 9) (bv 6 w 3) (bit w 2) (bit w 1))
  | 7 => row w [(0, 1, 0)] (.or (bv 6 w 15) (bv 6 w 9) (bv 6 w 3) (bit w 2) (bit w 1))
  | 8 => row w [(0, 1, 0)] (.xor (bv 6 w 15) (bv 6 w 9) (bv 6 w 3) (bit w 2) (bit w 1))
  | 9 => row w [(0, 1, 0)] (.andn (bv 6 w 15) (bv 6 w 9) (bv 6 w 3) (bit w 2) (bit w 1))
  | 10 => row w [(0, 1, 0)] (.shl (bv 6 w 15) (bv 6 w 9) (bv 6 w 3) (bit w 2) (bit w 1))
  | 11 => row w [] (.shr (bv 6 w 15) (bv 6 w 9) (bv 6 w 3) (bit w 2) (bit w 1) (bit w 0))
  | 12 => row w [(0, 1, 0)] (.rot (bv 6 w 15) (bv 6 w 9) (bv 6 w 3) (bit w 2) (bit w 1))
  | 13 => row w [] (.bfx (bv 6 w 15) (bv 6 w 9) (bv 6 w 3) (bit w 2) (bit w 1) (bit w 0))
  | 14 => row w [] (.idivn (bv 6 w 15) (bv 6 w 9) (bv 6 w 3) (bit w 2) (bit w 1) (bit w 0))
  | 15 => row w [(0, 1, 0)] (.fadd (bv 6 w 15) (bv 6 w 9) (bv 6 w 3) (bit w 2) (bit w 1))
  | 16 => row w [(0, 1, 0)] (.fsub (bv 6 w 15) (bv 6 w 9) (bv 6 w 3) (bit w 2) (bit w 1))
  | 17 => row w [(0, 1, 0)] (.fmul (bv 6 w 15) (bv 6 w 9) (bv 6 w 3) (bit w 2) (bit w 1))
  | 18 => row w [] (.fmin (bv 6 w 15) (bv 6 w 9) (bv 6 w 3) (bit w 2) (bit w 1) (bit w 0))
  | 19 => row w [] (.fmax (bv 6 w 15) (bv 6 w 9) (bv 6 w 3) (bit w 2) (bit w 1) (bit w 0))
  | 20 => row w [(0, 1, 0)] (.hadd2 (bv 6 w 15) (bv 6 w 9) (bv 6 w 3) (bit w 2) (bit w 1))
  | 21 => row w [(0, 1, 0)] (.hsub2 (bv 6 w 15) (bv 6 w 9) (bv 6 w 3) (bit w 2) (bit w 1))
  | 22 => row w [(0, 1, 0)] (.hmul2 (bv 6 w 15) (bv 6 w 9) (bv 6 w 3) (bit w 2) (bit w 1))
  | 23 => row w [(0, 1, 0)] (.hmin2 (bv 6 w 15) (bv 6 w 9) (bv 6 w 3) (bit w 2) (bit w 1))
  | 24 => row w [(0, 1, 0)] (.hmax2 (bv 6 w 15) (bv 6 w 9) (bv 6 w 3) (bit w 2) (bit w 1))
  | 25 => row w [] (.pack2 (bv 6 w 15) (bv 6 w 9) (bv 6 w 3) (bit w 2) (bit w 1) (bit w 0))
  | 26 => row w [] (.iadd64 (bv 6 w 15) (bv 6 w 9) (bv 6 w 3) (bit w 2) (bit w 1) (bit w 0))
  | 27 => row w [(0, 1, 0)] (.isub64 (bv 6 w 15) (bv 6 w 9) (bv 6 w 3) (bit w 2) (bit w 1))
  | 28 => row w [(0, 1, 0)] (.fdiv (bv 6 w 15) (bv 6 w 9) (bv 6 w 3) (bit w 2) (bit w 1))
  | op => .error (.unassigned "LR" op)

/-- Format LI (R58, R71): the row of each opcode, with its fixed bits below the opcode. -/
def decodeLI (w : Nat) : Except DecodeError Instr :=
  match fld w 22 5 with
  | 0 => row w [] (.movi (bv 6 w 16) (bv 16 w 0))
  | 1 => row w [] (.movhi (bv 6 w 16) (bv 16 w 0))
  | 2 => row w [] (.iaddi (bv 6 w 16) (bv 16 w 0))
  | 3 => row w [] (.imuli (bv 6 w 16) (bv 16 w 0))
  | 4 => row w [] (.andi (bv 6 w 16) (bv 16 w 0))
  | 5 => row w [] (.ori (bv 6 w 16) (bv 16 w 0))
  | 6 => row w [] (.xori (bv 6 w 16) (bv 16 w 0))
  | 7 => row w [(5, 11, 0)] (.shli (bv 6 w 16) (bv 5 w 0))
  | 8 => row w [(5, 11, 0)] (.shri (bv 6 w 16) (bv 5 w 0))
  | 9 => row w [(5, 11, 0)] (.shrai (bv 6 w 16) (bv 5 w 0))
  | 10 => row w [] (.faddi (bv 6 w 16) (bv 16 w 0))
  | 11 => row w [] (.fmuli (bv 6 w 16) (bv 16 w 0))
  | 12 => row w [] (.fmovi (bv 6 w 16) (bv 16 w 0))
  | 13 => row w [] (.hadd2i (bv 6 w 16) (bv 16 w 0))
  | 14 => row w [] (.hmul2i (bv 6 w 16) (bv 16 w 0))
  | 15 => row w [] (.hmovi2 (bv 6 w 16) (bv 16 w 0))
  | 16 => row w [] (.qmovi4 (bv 6 w 16) (bv 16 w 0))
  | 17 => row w [] (.fmini (bv 6 w 16) (bv 16 w 0))
  | 18 => row w [] (.fmaxi (bv 6 w 16) (bv 16 w 0))
  | op => .error (.unassigned "LI" op)

/-- Format LA (R58, R71): the row of each opcode, with its fixed bits below the opcode. -/
def decodeLA (w : Nat) : Except DecodeError Instr :=
  match fld w 23 4 with
  | 0 => row w [] (.ffma (bv 6 w 17) (bv 6 w 11) (bv 6 w 5) (bit w 4) (bit w 3) (bv 3 w 0))
  | 1 => row w [] (.fnma (bv 6 w 17) (bv 6 w 11) (bv 6 w 5) (bit w 4) (bit w 3) (bv 3 w 0))
  | 2 => row w [(0, 3, 0)] (.hfma2 (bv 6 w 17) (bv 6 w 11) (bv 6 w 5) (bit w 4) (bit w 3))
  | 3 => row w [(1, 2, 0)] (.imad (bv 6 w 17) (bv 6 w 11) (bv 6 w 5) (bit w 4) (bit w 3) (bit w 0))
  | 4 => row w [(0, 3, 0)] (.dot4 (bv 6 w 17) (bv 6 w 11) (bv 6 w 5) (bit w 4) (bit w 3))
  | 5 => row w [(0, 3, 0)] (.dot8 (bv 6 w 17) (bv 6 w 11) (bv 6 w 5) (bit w 4) (bit w 3))
  | 6 => row w [(0, 3, 0)] (.dot2h (bv 6 w 17) (bv 6 w 11) (bv 6 w 5) (bit w 4) (bit w 3))
  | 7 => row w [(0, 3, 0)] (.bfi (bv 6 w 17) (bv 6 w 11) (bv 6 w 5) (bit w 4) (bit w 3))
  | 8 => row w [(0, 3, 0)] (.permb (bv 6 w 17) (bv 6 w 11) (bv 6 w 5) (bit w 4) (bit w 3))
  | 9 => row w [] (.sel (bv 6 w 17) (bv 6 w 11) (bv 6 w 5) (bit w 4) (bit w 3) (bv 3 w 0))
  | 10 => row w [(0, 3, 0)] (.fclamp (bv 6 w 17) (bv 6 w 11) (bv 6 w 5) (bit w 4) (bit w 3))
  | 11 => row w [(0, 3, 0)] (.imadw (bv 6 w 17) (bv 6 w 11) (bv 6 w 5) (bit w 4) (bit w 3))
  | op => .error (.unassigned "LA" op)

/-- Format LM (R58, R71): the row of each opcode, with its fixed bits below the opcode. -/
def decodeLM (w : Nat) : Except DecodeError Instr :=
  match fld w 22 5 with
  | 0 => row w [] (.ldg8n (bv 6 w 16) (bv 6 w 10) (bv 4 w 6) (bit w 5) (bv 5 w 0))
  | 1 => row w [] (.ldg8i (bv 6 w 16) (bv 6 w 10) (bv 4 w 6) (bit w 5) (bv 5 w 0))
  | 2 => row w [] (.ldg16n (bv 6 w 16) (bv 6 w 10) (bv 4 w 6) (bit w 5) (bv 5 w 0))
  | 3 => row w [] (.ldg16i (bv 6 w 16) (bv 6 w 10) (bv 4 w 6) (bit w 5) (bv 5 w 0))
  | 4 => row w [] (.ldg32 (bv 6 w 16) (bv 6 w 10) (bv 4 w 6) (bit w 5) (bv 5 w 0))
  | 5 => row w [] (.ldg64 (bv 6 w 16) (bv 6 w 10) (bv 4 w 6) (bit w 5) (bv 5 w 0))
  | 6 => row w [] (.ldg128 (bv 6 w 16) (bv 6 w 10) (bv 4 w 6) (bit w 5) (bv 5 w 0))
  | 7 => row w [] (.stg8 (bv 6 w 16) (bv 6 w 10) (bv 4 w 6) (bit w 5) (bv 5 w 0))
  | 8 => row w [] (.stg16 (bv 6 w 16) (bv 6 w 10) (bv 4 w 6) (bit w 5) (bv 5 w 0))
  | 9 => row w [] (.stg32 (bv 6 w 16) (bv 6 w 10) (bv 4 w 6) (bit w 5) (bv 5 w 0))
  | 10 => row w [] (.stg64 (bv 6 w 16) (bv 6 w 10) (bv 4 w 6) (bit w 5) (bv 5 w 0))
  | 11 => row w [] (.stg128 (bv 6 w 16) (bv 6 w 10) (bv 4 w 6) (bit w 5) (bv 5 w 0))
  | 12 => row w [] (.ldp32 (bv 6 w 16) (bv 6 w 10) (bv 4 w 6) (bit w 5) (bv 5 w 0))
  | 13 => row w [] (.ldp64 (bv 6 w 16) (bv 6 w 10) (bv 4 w 6) (bit w 5) (bv 5 w 0))
  | 14 => row w [] (.ldp128 (bv 6 w 16) (bv 6 w 10) (bv 4 w 6) (bit w 5) (bv 5 w 0))
  | 15 => row w [] (.stp32 (bv 6 w 16) (bv 6 w 10) (bv 4 w 6) (bit w 5) (bv 5 w 0))
  | 16 => row w [] (.stp64 (bv 6 w 16) (bv 6 w 10) (bv 4 w 6) (bit w 5) (bv 5 w 0))
  | 17 => row w [] (.stp128 (bv 6 w 16) (bv 6 w 10) (bv 4 w 6) (bit w 5) (bv 5 w 0))
  | 18 => row w [] (.atomg (bv 6 w 16) (bv 6 w 10) (bv 4 w 6) (bit w 5) (bv 5 w 0))
  | 19 => row w [] (.redg (bv 6 w 16) (bv 6 w 10) (bv 4 w 6) (bit w 5) (bv 5 w 0))
  | 20 => row w [] (.atomp (bv 6 w 16) (bv 6 w 10) (bv 4 w 6) (bit w 5) (bv 5 w 0))
  | 21 => row w [(16, 6, 0)] (.prefg (bv 6 w 10) (bv 4 w 6) (bit w 5) (bv 5 w 0))
  | 22 => row w [(3, 2, 0)] (.lda32 (bv 6 w 16) (bv 6 w 10) (bv 4 w 6) (bit w 5) (bv 3 w 0))
  | 23 => row w [(3, 2, 0)] (.lda64 (bv 6 w 16) (bv 6 w 10) (bv 4 w 6) (bit w 5) (bv 3 w 0))
  | 24 => row w [(3, 2, 0)] (.stl32 (bv 6 w 16) (bv 6 w 10) (bv 4 w 6) (bit w 5) (bv 3 w 0))
  | 25 => row w [(3, 2, 0)] (.stl64 (bv 6 w 16) (bv 6 w 10) (bv 4 w 6) (bit w 5) (bv 3 w 0))
  | 26 => row w [(6, 4, 0)] (.ldf32 (bv 6 w 16) (bv 6 w 10) (bit w 5) (bv 5 w 0))
  | 27 => row w [(6, 4, 0)] (.stf32 (bv 6 w 16) (bv 6 w 10) (bit w 5) (bv 5 w 0))
  | op => .error (.unassigned "LM" op)

/-- Format LU (R58, R71): the row of each opcode, with its fixed bits below the opcode. -/
def decodeLU (w : Nat) : Except DecodeError Instr :=
  match fld w 21 6 with
  | 0 => row w [(0, 8, 0)] (.mov (bv 6 w 15) (bv 6 w 9) (bit w 8))
  | 1 => row w [(0, 8, 0)] (.fabs (bv 6 w 15) (bv 6 w 9) (bit w 8))
  | 2 => row w [(0, 8, 0)] (.fneg (bv 6 w 15) (bv 6 w 9) (bit w 8))
  | 3 => row w [(0, 8, 0)] (.ineg (bv 6 w 15) (bv 6 w 9) (bit w 8))
  | 4 => row w [(0, 8, 0)] (.not (bv 6 w 15) (bv 6 w 9) (bit w 8))
  | 5 => row w [(0, 8, 0)] (.popc (bv 6 w 15) (bv 6 w 9) (bit w 8))
  | 6 => row w [(0, 8, 0)] (.clz (bv 6 w 15) (bv 6 w 9) (bit w 8))
  | 7 => row w [(0, 8, 0)] (.brev (bv 6 w 15) (bv 6 w 9) (bit w 8))
  | 8 => row w [(0, 8, 0)] (.frcp (bv 6 w 15) (bv 6 w 9) (bit w 8))
  | 9 => row w [(0, 8, 0)] (.frsq (bv 6 w 15) (bv 6 w 9) (bit w 8))
  | 10 => row w [(0, 8, 0)] (.fsqrt (bv 6 w 15) (bv 6 w 9) (bit w 8))
  | 11 => row w [(0, 8, 0)] (.fexp2 (bv 6 w 15) (bv 6 w 9) (bit w 8))
  | 12 => row w [(0, 8, 0)] (.flog2 (bv 6 w 15) (bv 6 w 9) (bit w 8))
  | 13 => if bit w 0 then row w [(0, 8, 1)] (.fcos (bv 6 w 15) (bv 6 w 9) (bit w 8)) else row w [(0, 8, 0)] (.fsin (bv 6 w 15) (bv 6 w 9) (bit w 8))
  | 14 => row w [(0, 8, 0)] (.ftanh (bv 6 w 15) (bv 6 w 9) (bit w 8))
  | 15 => row w [(0, 8, 0)] (.ftoi (bv 6 w 15) (bv 6 w 9) (bit w 8))
  | 16 => row w [(0, 8, 0)] (.itof (bv 6 w 15) (bv 6 w 9) (bit w 8))
  | 17 => row w [(1, 7, 0)] (.fcvt (bv 6 w 15) (bv 6 w 9) (bit w 8) (bit w 0))
  | 18 => row w [(1, 7, 0)] (.hcvt (bv 6 w 15) (bv 6 w 9) (bit w 8) (bit w 0))
  | 19 => row w [(2, 6, 0)] (.qcvt (bv 6 w 15) (bv 6 w 9) (bit w 8) (bv 2 w 0))
  | 20 => row w [(2, 6, 0)] (.qunp (bv 6 w 15) (bv 6 w 9) (bit w 8) (bv 2 w 0))
  | 21 => row w [(3, 5, 0)] (.q4cvt (bv 6 w 15) (bv 6 w 9) (bit w 8) (bv 3 w 0))
  | 22 => row w [(3, 5, 0)] (.q4unp (bv 6 w 15) (bv 6 w 9) (bit w 8) (bv 3 w 0))
  | 23 => row w [(2, 6, 0)] (.frnd (bv 6 w 15) (bv 6 w 9) (bit w 8) (bv 2 w 0))
  | 24 => row w [(0, 8, 0)] (.fclass (bv 6 w 15) (bv 6 w 9) (bit w 8))
  | 25 => row w [(0, 15, 0)] (.laneid (bv 6 w 15))
  | op => .error (.unassigned "LU" op)

/-- Format LP (R58, R71): the row of each opcode, with its fixed bits below the opcode. -/
def decodeLP (w : Nat) : Except DecodeError Instr :=
  match fld w 22 5 with
  | 0 => row w [] (.icmp (bv 3 w 19) (bv 6 w 13) (bv 6 w 7) (bit w 6) (bit w 5) (bv 2 w 3) (bv 3 w 0))
  | 1 => row w [] (.icmpn (bv 3 w 19) (bv 6 w 13) (bv 6 w 7) (bit w 6) (bit w 5) (bv 2 w 3) (bv 3 w 0))
  | 2 => row w [] (.fcmp (bv 3 w 19) (bv 6 w 13) (bv 6 w 7) (bit w 6) (bit w 5) (bv 2 w 3) (bv 3 w 0))
  | 3 => row w [(0, 3, 0)] (.testb (bv 3 w 19) (bv 6 w 13) (bv 6 w 7) (bit w 6) (bit w 5) (bv 2 w 3))
  | 4 => row w [(0, 3, 0), (5, 2, 0), (10, 3, 0), (16, 1, 0)] (.plog (bv 3 w 19) (bv 2 w 17) (bv 3 w 13) (bv 3 w 7) (bv 2 w 3))
  | op => .error (.unassigned "LP" op)

/-- Format LX (R58, R71): the row of each opcode, with its fixed bits below the opcode. -/
def decodeLX (w : Nat) : Except DecodeError Instr :=
  match fld w 22 5 with
  | 0 => row w [] (.scan (bv 6 w 16) (bv 6 w 10) (bv 6 w 4) (bit w 3) (bv 3 w 0))
  | 1 => row w [] (.scanx (bv 6 w 16) (bv 6 w 10) (bv 6 w 4) (bit w 3) (bv 3 w 0))
  | 2 => row w [(16, 6, 0)] (.reduce (bv 6 w 10) (bv 6 w 4) (bit w 3) (bv 3 w 0))
  | 3 => row w [(0, 3, 0)] (.prevLane (bv 6 w 16) (bv 6 w 10) (bv 6 w 4) (bit w 3))
  | 4 => row w [(0, 3, 0)] (.nextLane (bv 6 w 16) (bv 6 w 10) (bv 6 w 4) (bit w 3))
  | 5 => row w [(0, 2, 0)] (.shup (bv 6 w 16) (bv 6 w 10) (bv 6 w 4) (bit w 3) (bit w 2))
  | 6 => row w [(0, 2, 0)] (.shdn (bv 6 w 16) (bv 6 w 10) (bv 6 w 4) (bit w 3) (bit w 2))
  | 7 => row w [(0, 2, 0)] (.bfly (bv 6 w 16) (bv 6 w 10) (bv 6 w 4) (bit w 3) (bit w 2))
  | 8 => row w [(0, 2, 0)] (.perm (bv 6 w 16) (bv 6 w 10) (bv 6 w 4) (bit w 3) (bit w 2))
  | 9 => row w [(0, 2, 0)] (.bcastl (bv 6 w 16) (bv 6 w 10) (bv 6 w 4) (bit w 3) (bit w 2))
  | 10 => row w [(0, 4, 0), (13, 9, 0)] (.vote (bv 3 w 10) (bv 6 w 4))
  | 11 => row w [(0, 3, 0)] (.matchEq (bv 6 w 16) (bv 6 w 10) (bv 6 w 4) (bit w 3))
  | 12 => row w [(0, 4, 0), (10, 6, 0)] (.gets (bv 6 w 16) (bv 6 w 4))
  | 13 => row w [(0, 3, 0), (16, 6, 0)] (.puts (bv 6 w 10) (bv 6 w 4) (bit w 3))
  | op => .error (.unassigned "LX" op)

/-- Format GR (R59, R76): the row of each opcode, with its fixed bits below the opcode. -/
def decodeGR (w : Nat) : Except DecodeError Instr :=
  match fld w 21 6 with
  | 0 => row w [(0, 3, 0)] (.sadd (bv 6 w 15) (bv 6 w 9) (bv 6 w 3))
  | 1 => row w [(0, 3, 0)] (.ssub (bv 6 w 15) (bv 6 w 9) (bv 6 w 3))
  | 2 => row w [(0, 3, 0)] (.smul (bv 6 w 15) (bv 6 w 9) (bv 6 w 3))
  | 3 => row w [(1, 2, 0)] (.smulh (bv 6 w 15) (bv 6 w 9) (bv 6 w 3) (bit w 0))
  | 4 => row w [(1, 2, 0)] (.smin (bv 6 w 15) (bv 6 w 9) (bv 6 w 3) (bit w 0))
  | 5 => row w [(1, 2, 0)] (.smax (bv 6 w 15) (bv 6 w 9) (bv 6 w 3) (bit w 0))
  | 6 => row w [(0, 3, 0)] (.sand (bv 6 w 15) (bv 6 w 9) (bv 6 w 3))
  | 7 => row w [(0, 3, 0)] (.sor (bv 6 w 15) (bv 6 w 9) (bv 6 w 3))
  | 8 => row w [(0, 3, 0)] (.sxor (bv 6 w 15) (bv 6 w 9) (bv 6 w 3))
  | 9 => row w [(0, 3, 0)] (.sshl (bv 6 w 15) (bv 6 w 9) (bv 6 w 3))
  | 10 => row w [(0, 3, 0)] (.sshr (bv 6 w 15) (bv 6 w 9) (bv 6 w 3))
  | 11 => row w [(0, 3, 0)] (.sshra (bv 6 w 15) (bv 6 w 9) (bv 6 w 3))
  | 12 => row w [(0, 3, 0)] (.sadd64 (bv 6 w 15) (bv 6 w 9) (bv 6 w 3))
  | 13 => row w [] (.scmp (bv 6 w 15) (bv 6 w 9) (bv 6 w 3) (bv 3 w 0))
  | 14 => row w [(0, 3, 0)] (.sfadd (bv 6 w 15) (bv 6 w 9) (bv 6 w 3))
  | 15 => row w [(0, 3, 0)] (.sfmul (bv 6 w 15) (bv 6 w 9) (bv 6 w 3))
  | 16 => row w [(0, 3, 0)] (.sdivn (bv 6 w 15) (bv 6 w 9) (bv 6 w 3))
  | 17 => row w [(0, 9, 0)] (.spopc (bv 6 w 15) (bv 6 w 9))
  | 18 => row w [(0, 9, 0)] (.sff1 (bv 6 w 15) (bv 6 w 9))
  | op => .error (.unassigned "GR" op)

/-- Format GI (R59, R76): the row of each opcode, with its fixed bits below the opcode. -/
def decodeGI (w : Nat) : Except DecodeError Instr :=
  match fld w 22 5 with
  | 0 => row w [] (.smovi (bv 6 w 16) (bv 16 w 0))
  | 1 => row w [] (.smovhi (bv 6 w 16) (bv 16 w 0))
  | 2 => row w [] (.saddi (bv 6 w 16) (bv 16 w 0))
  | 3 => row w [] (.sandi (bv 6 w 16) (bv 16 w 0))
  | 4 => row w [] (.sori (bv 6 w 16) (bv 16 w 0))
  | 5 => row w [] (.sxori (bv 6 w 16) (bv 16 w 0))
  | 6 => row w [(5, 11, 0)] (.sshli (bv 6 w 16) (bv 5 w 0))
  | 7 => row w [(5, 11, 0)] (.sshri (bv 6 w 16) (bv 5 w 0))
  | 8 => row w [] (.smuli (bv 6 w 16) (bv 16 w 0))
  | op => .error (.unassigned "GI" op)

/-- Format GB (R59, R76): the row of each opcode, with its fixed bits below the opcode. -/
def decodeGB (w : Nat) : Except DecodeError Instr :=
  match fld w 23 4 with
  | 0 => row w [(17, 6, 0)] (.bra (bv 17 w 0))
  | 1 => row w [] (.bz (bv 6 w 17) (bv 17 w 0))
  | 2 => row w [] (.bnz (bv 6 w 17) (bv 17 w 0))
  | 3 => row w [] (.call (bv 6 w 17) (bv 17 w 0))
  | 4 => row w [(0, 17, 0)] (.brx (bv 6 w 17))
  | 5 => row w [(20, 3, 0)] (.bdiv (bv 3 w 17) (bv 17 w 0))
  | 6 => row w [] (.bidx (bv 6 w 17) (bv 17 w 0))
  | 7 => row w [(17, 6, 0)] (.jset (bv 17 w 0))
  | 8 => row w [(0, 23, 0)] .join
  | 9 => row w [(22, 1, 0)] (.bvote (bv 2 w 20) (bv 3 w 17) (bv 17 w 0))
  | 10 => row w [(0, 23, 0)] .exit
  | 11 => row w [(0, 23, 0)] .joint
  | 12 => row w [(8, 15, 0)] (.trap (bv 8 w 0))
  | 13 => row w [(0, 23, 0)] .bkpt
  | op => .error (.unassigned "GB" op)

/-- Format GT (R59, R76): the row of each opcode, with its fixed bits below the opcode. -/
def decodeGT (w : Nat) : Except DecodeError Instr :=
  match fld w 22 5 with
  | 0 => row w [(3, 14, 0)] (.talloc (bv 5 w 17) (bv 3 w 0))
  | 1 => row w [(0, 17, 0)] (.tfree (bv 5 w 17))
  | 2 => row w [(5, 7, 0), (17, 5, 0)] (.tgive (bv 5 w 12) (bv 5 w 0))
  | 3 => row w [(5, 12, 0)] (.ttake (bv 5 w 17) (bv 5 w 0))
  | 4 => row w [(0, 17, 0)] (.tzero (bv 5 w 17))
  | 5 => row w [(2, 3, 0)] (.mma (bv 5 w 17) (bv 5 w 12) (bv 5 w 7) (bit w 6) (bit w 5) (bv 2 w 0))
  | 6 => row w [(2, 3, 0), (6, 1, 0)] (.mmas (bv 5 w 17) (bv 5 w 12) (bv 5 w 7) (bit w 5) (bv 2 w 0))
  | 7 => row w [(0, 7, 0)] (.tcomp (bv 5 w 17) (bv 5 w 12) (bv 5 w 7))
  | 8 => row w [(4, 3, 0)] (.tsoft (bv 5 w 17) (bv 5 w 12) (bv 5 w 7) (bit w 3) (bv 3 w 0))
  | 9 => row w [(1, 6, 0)] (.tscale (bv 5 w 17) (bv 5 w 12) (bv 5 w 7) (bit w 0))
  | 10 => row w [(0, 7, 0)] (.tnorm (bv 5 w 17) (bv 5 w 12) (bv 5 w 7))
  | 11 => row w [(2, 10, 0)] (.trowred (bv 5 w 17) (bv 5 w 12) (bv 2 w 0))
  | 12 => row w [] (.tew (bv 5 w 17) (bv 5 w 12) (bv 5 w 7) (bit w 6) (bv 2 w 4) (bv 4 w 0))
  | 13 => row w [(6, 1, 0), (17, 5, 0)] (.ttov (bv 5 w 12) (bv 5 w 7) (bv 6 w 0))
  | 14 => row w [(6, 1, 0), (12, 5, 0)] (.vtot (bv 5 w 17) (bv 5 w 7) (bv 6 w 0))
  | 15 => row w [(6, 6, 0), (17, 5, 0)] (.tarv (bv 5 w 12) (bv 6 w 0))
  | 16 => row w [(7, 5, 0), (17, 5, 0)] (.tawt (bv 5 w 12) (bv 7 w 0))
  | 17 => row w [(6, 6, 0), (17, 5, 0)] (.tstat (bv 5 w 12) (bv 6 w 0))
  | 18 => row w [(0, 7, 0)] (.sigq (bv 5 w 17) (bv 5 w 12) (bv 5 w 7))
  | op => .error (.unassigned "GT" op)

/-- Format GE (R59, R76): the row of each opcode, with its fixed bits below the opcode. -/
def decodeGE (w : Nat) : Except DecodeError Instr :=
  match fld w 22 5 with
  | 0 => row w [(3, 3, 0)] (.cpy (bv 4 w 18) (bv 6 w 12) (bv 6 w 6) (bv 3 w 0))
  | 1 => row w [(11, 1, 0)] (.tld (bv 4 w 18) (bv 6 w 12) (bv 5 w 6) (bv 6 w 0))
  | 2 => row w [(11, 1, 0)] (.tst (bv 4 w 18) (bv 6 w 12) (bv 5 w 6) (bv 6 w 0))
  | 3 => row w [(5, 1, 0), (11, 1, 0)] (.wbld (bv 4 w 18) (bv 6 w 12) (bv 5 w 6) (bv 2 w 3) (bv 2 w 1) (bit w 0))
  | 4 => row w [(4, 2, 0), (11, 1, 0)] (.gath (bv 4 w 18) (bv 6 w 12) (bv 5 w 6) (bv 3 w 1) (bit w 0))
  | 5 => row w [] (.sigf (bv 4 w 18) (bv 6 w 12) (bv 6 w 6) (bv 6 w 0))
  | 6 => row w [(3, 3, 0)] (.cpyf (bv 4 w 18) (bv 6 w 12) (bv 6 w 6) (bv 3 w 0))
  | 7 => row w [(0, 6, 0)] (.mcst (bv 4 w 18) (bv 6 w 12) (bv 6 w 6))
  | 8 => row w [(2, 10, 0)] (.coll (bv 4 w 18) (bv 6 w 12) (bv 2 w 0))
  | 9 => row w [(0, 6, 0)] (.enc (bv 4 w 18) (bv 6 w 12) (bv 6 w 6))
  | 10 => row w [(2, 16, 0)] (.batch (bv 4 w 18) (bv 2 w 0))
  | 11 => row w [(6, 12, 0)] (.waittl (bv 4 w 18) (bv 6 w 0))
  | 12 => row w [(6, 6, 0)] (.testtl (bv 4 w 18) (bv 6 w 12) (bv 6 w 0))
  | 13 => row w [(0, 18, 0)] (.cancel (bv 4 w 18))
  | 14 => row w [(2, 4, 0), (10, 2, 0)] (.qmov (bv 4 w 18) (bv 6 w 12) (bv 4 w 6) (bv 2 w 0))
  | 15 => row w [(0, 12, 0)] (.pagein (bv 4 w 18) (bv 6 w 12))
  | 16 => if bit w 0 then row w [(0, 12, 1), (18, 4, 0)] (.rstepEnd (bv 6 w 12)) else row w [(0, 6, 0), (18, 4, 0)] (.rstepBegin (bv 6 w 12) (bv 6 w 6))
  | 17 => row w [(6, 6, 0), (18, 4, 0)] (.rwiden (bv 6 w 12) (bv 6 w 0))
  | 18 => row w [(6, 6, 0), (18, 4, 0)] (.rnarrow (bv 6 w 12) (bv 6 w 0))
  | 19 => row w [(0, 6, 0), (18, 4, 0)] (.rview (bv 6 w 12) (bv 6 w 6))
  | 20 => row w [(0, 6, 0), (11, 1, 0)] (.rpub (bv 4 w 18) (bv 6 w 12) (bv 5 w 6))
  | 21 => row w [(0, 6, 0), (18, 4, 0)] (.kvalloc (bv 6 w 12) (bv 6 w 6))
  | 22 => row w [(0, 12, 0)] (.kvrel (bv 4 w 18) (bv 6 w 12))
  | 23 => if bit w 0 then row w [(0, 12, 1)] (.kvappMem (bv 4 w 18) (bv 6 w 12)) else row w [(0, 6, 0), (11, 1, 0)] (.kvapp (bv 4 w 18) (bv 6 w 12) (bv 5 w 6))
  | 24 => row w [(0, 12, 0)] (.kvflush (bv 4 w 18) (bv 6 w 12))
  | op => .error (.unassigned "GE" op)

/-- Format GS (R59, R76): the row of each opcode, with its fixed bits below the opcode. -/
def decodeGS (w : Nat) : Except DecodeError Instr :=
  match fld w 21 6 with
  | 0 => row w [(4, 4, 0), (15, 6, 0)] (.bar (bv 6 w 9) (bit w 8) (bv 4 w 0))
  | 1 => row w [(4, 4, 0), (15, 6, 0)] (.bara (bv 6 w 9) (bit w 8) (bv 4 w 0))
  | 2 => row w [(4, 4, 0), (9, 12, 0)] (.barw (bit w 8) (bv 4 w 0))
  | 3 => row w [(5, 16, 0)] (.fence (bv 2 w 3) (bv 3 w 0))
  | 4 => row w [] (.waitm (bv 6 w 15) (bv 6 w 9) (bv 9 w 0))
  | 5 => row w [(0, 21, 0)] .yield
  | 6 => row w [(9, 12, 0)] (.sleep (bv 9 w 0))
  | 7 => row w [(9, 6, 0)] (.getsr (bv 6 w 15) (bv 9 w 0))
  | 8 => row w [(9, 6, 0)] (.setsr (bv 6 w 15) (bv 9 w 0))
  | 9 => if bit w 8 then row w [(3, 18, 32)] (.fmtwRm (bv 3 w 0)) else row w [(0, 15, 0)] (.fmtw (bv 6 w 15))
  | 10 => row w [(4, 17, 0)] (.hclaim (bv 4 w 0))
  | 11 => row w [(4, 17, 0)] (.hrel (bv 4 w 0))
  | 12 => row w [(4, 11, 0)] (.hwr (bv 6 w 15) (bv 4 w 0))
  | 13 => row w [(4, 11, 0)] (.hrd (bv 6 w 15) (bv 4 w 0))
  | 14 => row w [(0, 21, 0)] .snap
  | 15 => row w [(0, 21, 0)] .resume
  | 16 => row w [(9, 12, 0)] (.syscall (bv 9 w 0))
  | op => .error (.unassigned "GS" op)

/-- Format GL (R59, R76): the row of each opcode, with its fixed bits below the opcode. -/
def decodeGL (w w1 : Nat) : Except DecodeError Instr :=
  match fld w 22 5 with
  | 0 => row w [(0, 16, 0)] (.smov32 (bv 6 w 16) (BitVec.ofNat 32 w1))
  | 1 => row w [(0, 22, 0)] (.braL (BitVec.ofNat 32 w1))
  | 2 => row w [(0, 16, 0)] (.callL (bv 6 w 16) (BitVec.ofNat 32 w1))
  | 3 => row w [(0, 16, 0)] (.sadd32 (bv 6 w 16) (BitVec.ofNat 32 w1))
  | op => .error (.unassigned "GL" op)

/-- A word that needs the word after it: a GL word (R63) or a GUARD (R62). -/
def needsSecond (w : Nat) : Bool :=
  (fld w 31 1 == 1 && fld w 27 3 == 6) || (fld w 31 1 == 0 && fld w 27 3 == 7)

/-- A GUARD word and the word that follows it (R62). -/
def decodeGuard (w w1 : Nat) : Except DecodeError Instr :=
  if bit w 30 || fld w 0 23 != 0 then .error .guardMisuse
  else if (Instr.guard (bv 3 w 24) (bit w 23) (BitVec.ofNat 32 w1)).wellFormed then
    .ok (.guard (bv 3 w 24) (bit w 23) (BitVec.ofNat 32 w1))
  else .error .guardMisuse

/-- One instruction from its word and the word after it (R57, R58, R59). -/
def decodeWord (w w1 : Nat) : Except DecodeError Instr :=
  match fld w 31 1, fld w 27 3 with
  | 0, 0 => decodeLR w
  | 0, 1 => decodeLI w
  | 0, 2 => decodeLA w
  | 0, 3 => decodeLM w
  | 0, 4 => decodeLU w
  | 0, 5 => decodeLP w
  | 0, 6 => decodeLX w
  | 0, _ => decodeGuard w w1
  | _, 0 => decodeGR w
  | _, 1 => decodeGI w
  | _, 2 => decodeGB w
  | _, 3 => decodeGT w
  | _, 4 => decodeGE w
  | _, 5 => decodeGS w
  | _, 6 => decodeGL w w1
  | _, _ => .error .reservedFormat

/-- The marker of an instruction: bit [30] of its word, and for a guarded pair bit [30] of the guarded word (R62, R68). -/
def markerOf (w w1 : Nat) : Bool := if fld w 31 1 == 0 && fld w 27 3 == 7 then bit w1 30 else bit w 30

/-- Decode the instruction at the head of a list of bytes: its marker, the instruction and the rest of the bytes. -/
def decode (bs : List Byte) : Except DecodeError (Bool × Instr × List Byte) :=
  if bs.length < 4 then .error .truncated
  else
    let w := bytesNat (bs.take 4)
    if needsSecond w then
      if bs.length < 8 then .error .truncated
      else
        let w1 := bytesNat ((bs.drop 4).take 4)
        (decodeWord w w1).map fun i => (markerOf w w1, i, bs.drop 8)
    else (decodeWord w 0).map fun i => (markerOf w 0, i, bs.drop 4)

/-- The instruction that the table's bits stand for: nbits bits of w, the bits above them zero up to two words. -/
def decodeTableWord (nbits w : Nat) : Option Instr :=
  match decode (natBytes 8 (w % 2 ^ nbits)) with
  | .ok (_, i, _) => some i
  | .error _ => none

/-- The words of an instruction with its marker (R80, R107, R132, R160, R183); an event row has none. A GUARD word has no
marker of its own (R62): the guarded word carries it. -/
def encode : Bool → Instr → List Word
  | m, .iadd d a b la lb x => [BitVec.ofNat 32 (0 + m.toNat * 1073741824 + d.toNat * 32768 + a.toNat * 512 + b.toNat * 8 + la.toNat * 4 + lb.toNat * 2 + x.toNat)]
  | m, .isub d a b la lb x => [BitVec.ofNat 32 (2097152 + m.toNat * 1073741824 + d.toNat * 32768 + a.toNat * 512 + b.toNat * 8 + la.toNat * 4 + lb.toNat * 2 + x.toNat)]
  | m, .imul d a b la lb x => [BitVec.ofNat 32 (4194304 + m.toNat * 1073741824 + d.toNat * 32768 + a.toNat * 512 + b.toNat * 8 + la.toNat * 4 + lb.toNat * 2 + x.toNat)]
  | m, .imuln d a b la lb x => [BitVec.ofNat 32 (6291456 + m.toNat * 1073741824 + d.toNat * 32768 + a.toNat * 512 + b.toNat * 8 + la.toNat * 4 + lb.toNat * 2 + x.toNat)]
  | m, .imin d a b la lb x => [BitVec.ofNat 32 (8388608 + m.toNat * 1073741824 + d.toNat * 32768 + a.toNat * 512 + b.toNat * 8 + la.toNat * 4 + lb.toNat * 2 + x.toNat)]
  | m, .imax d a b la lb x => [BitVec.ofNat 32 (10485760 + m.toNat * 1073741824 + d.toNat * 32768 + a.toNat * 512 + b.toNat * 8 + la.toNat * 4 + lb.toNat * 2 + x.toNat)]
  | m, .and d a b la lb => [BitVec.ofNat 32 (12582912 + m.toNat * 1073741824 + d.toNat * 32768 + a.toNat * 512 + b.toNat * 8 + la.toNat * 4 + lb.toNat * 2)]
  | m, .or d a b la lb => [BitVec.ofNat 32 (14680064 + m.toNat * 1073741824 + d.toNat * 32768 + a.toNat * 512 + b.toNat * 8 + la.toNat * 4 + lb.toNat * 2)]
  | m, .xor d a b la lb => [BitVec.ofNat 32 (16777216 + m.toNat * 1073741824 + d.toNat * 32768 + a.toNat * 512 + b.toNat * 8 + la.toNat * 4 + lb.toNat * 2)]
  | m, .andn d a b la lb => [BitVec.ofNat 32 (18874368 + m.toNat * 1073741824 + d.toNat * 32768 + a.toNat * 512 + b.toNat * 8 + la.toNat * 4 + lb.toNat * 2)]
  | m, .shl d a b la lb => [BitVec.ofNat 32 (20971520 + m.toNat * 1073741824 + d.toNat * 32768 + a.toNat * 512 + b.toNat * 8 + la.toNat * 4 + lb.toNat * 2)]
  | m, .shr d a b la lb x => [BitVec.ofNat 32 (23068672 + m.toNat * 1073741824 + d.toNat * 32768 + a.toNat * 512 + b.toNat * 8 + la.toNat * 4 + lb.toNat * 2 + x.toNat)]
  | m, .rot d a b la lb => [BitVec.ofNat 32 (25165824 + m.toNat * 1073741824 + d.toNat * 32768 + a.toNat * 512 + b.toNat * 8 + la.toNat * 4 + lb.toNat * 2)]
  | m, .bfx d a b la lb x => [BitVec.ofNat 32 (27262976 + m.toNat * 1073741824 + d.toNat * 32768 + a.toNat * 512 + b.toNat * 8 + la.toNat * 4 + lb.toNat * 2 + x.toNat)]
  | m, .idivn d a b la lb x => [BitVec.ofNat 32 (29360128 + m.toNat * 1073741824 + d.toNat * 32768 + a.toNat * 512 + b.toNat * 8 + la.toNat * 4 + lb.toNat * 2 + x.toNat)]
  | m, .fadd d a b la lb => [BitVec.ofNat 32 (31457280 + m.toNat * 1073741824 + d.toNat * 32768 + a.toNat * 512 + b.toNat * 8 + la.toNat * 4 + lb.toNat * 2)]
  | m, .fsub d a b la lb => [BitVec.ofNat 32 (33554432 + m.toNat * 1073741824 + d.toNat * 32768 + a.toNat * 512 + b.toNat * 8 + la.toNat * 4 + lb.toNat * 2)]
  | m, .fmul d a b la lb => [BitVec.ofNat 32 (35651584 + m.toNat * 1073741824 + d.toNat * 32768 + a.toNat * 512 + b.toNat * 8 + la.toNat * 4 + lb.toNat * 2)]
  | m, .fmin d a b la lb x => [BitVec.ofNat 32 (37748736 + m.toNat * 1073741824 + d.toNat * 32768 + a.toNat * 512 + b.toNat * 8 + la.toNat * 4 + lb.toNat * 2 + x.toNat)]
  | m, .fmax d a b la lb x => [BitVec.ofNat 32 (39845888 + m.toNat * 1073741824 + d.toNat * 32768 + a.toNat * 512 + b.toNat * 8 + la.toNat * 4 + lb.toNat * 2 + x.toNat)]
  | m, .hadd2 d a b la lb => [BitVec.ofNat 32 (41943040 + m.toNat * 1073741824 + d.toNat * 32768 + a.toNat * 512 + b.toNat * 8 + la.toNat * 4 + lb.toNat * 2)]
  | m, .hsub2 d a b la lb => [BitVec.ofNat 32 (44040192 + m.toNat * 1073741824 + d.toNat * 32768 + a.toNat * 512 + b.toNat * 8 + la.toNat * 4 + lb.toNat * 2)]
  | m, .hmul2 d a b la lb => [BitVec.ofNat 32 (46137344 + m.toNat * 1073741824 + d.toNat * 32768 + a.toNat * 512 + b.toNat * 8 + la.toNat * 4 + lb.toNat * 2)]
  | m, .hmin2 d a b la lb => [BitVec.ofNat 32 (48234496 + m.toNat * 1073741824 + d.toNat * 32768 + a.toNat * 512 + b.toNat * 8 + la.toNat * 4 + lb.toNat * 2)]
  | m, .hmax2 d a b la lb => [BitVec.ofNat 32 (50331648 + m.toNat * 1073741824 + d.toNat * 32768 + a.toNat * 512 + b.toNat * 8 + la.toNat * 4 + lb.toNat * 2)]
  | m, .pack2 d a b la lb x => [BitVec.ofNat 32 (52428800 + m.toNat * 1073741824 + d.toNat * 32768 + a.toNat * 512 + b.toNat * 8 + la.toNat * 4 + lb.toNat * 2 + x.toNat)]
  | m, .iadd64 d a b la lb x => [BitVec.ofNat 32 (54525952 + m.toNat * 1073741824 + d.toNat * 32768 + a.toNat * 512 + b.toNat * 8 + la.toNat * 4 + lb.toNat * 2 + x.toNat)]
  | m, .isub64 d a b la lb => [BitVec.ofNat 32 (56623104 + m.toNat * 1073741824 + d.toNat * 32768 + a.toNat * 512 + b.toNat * 8 + la.toNat * 4 + lb.toNat * 2)]
  | m, .fdiv d a b la lb => [BitVec.ofNat 32 (58720256 + m.toNat * 1073741824 + d.toNat * 32768 + a.toNat * 512 + b.toNat * 8 + la.toNat * 4 + lb.toNat * 2)]
  | m, .movi d imm => [BitVec.ofNat 32 (134217728 + m.toNat * 1073741824 + d.toNat * 65536 + imm.toNat)]
  | m, .movhi d imm => [BitVec.ofNat 32 (138412032 + m.toNat * 1073741824 + d.toNat * 65536 + imm.toNat)]
  | m, .iaddi d imm => [BitVec.ofNat 32 (142606336 + m.toNat * 1073741824 + d.toNat * 65536 + imm.toNat)]
  | m, .imuli d imm => [BitVec.ofNat 32 (146800640 + m.toNat * 1073741824 + d.toNat * 65536 + imm.toNat)]
  | m, .andi d imm => [BitVec.ofNat 32 (150994944 + m.toNat * 1073741824 + d.toNat * 65536 + imm.toNat)]
  | m, .ori d imm => [BitVec.ofNat 32 (155189248 + m.toNat * 1073741824 + d.toNat * 65536 + imm.toNat)]
  | m, .xori d imm => [BitVec.ofNat 32 (159383552 + m.toNat * 1073741824 + d.toNat * 65536 + imm.toNat)]
  | m, .shli d imm => [BitVec.ofNat 32 (163577856 + m.toNat * 1073741824 + d.toNat * 65536 + imm.toNat)]
  | m, .shri d imm => [BitVec.ofNat 32 (167772160 + m.toNat * 1073741824 + d.toNat * 65536 + imm.toNat)]
  | m, .shrai d imm => [BitVec.ofNat 32 (171966464 + m.toNat * 1073741824 + d.toNat * 65536 + imm.toNat)]
  | m, .faddi d imm => [BitVec.ofNat 32 (176160768 + m.toNat * 1073741824 + d.toNat * 65536 + imm.toNat)]
  | m, .fmuli d imm => [BitVec.ofNat 32 (180355072 + m.toNat * 1073741824 + d.toNat * 65536 + imm.toNat)]
  | m, .fmovi d imm => [BitVec.ofNat 32 (184549376 + m.toNat * 1073741824 + d.toNat * 65536 + imm.toNat)]
  | m, .hadd2i d imm => [BitVec.ofNat 32 (188743680 + m.toNat * 1073741824 + d.toNat * 65536 + imm.toNat)]
  | m, .hmul2i d imm => [BitVec.ofNat 32 (192937984 + m.toNat * 1073741824 + d.toNat * 65536 + imm.toNat)]
  | m, .hmovi2 d imm => [BitVec.ofNat 32 (197132288 + m.toNat * 1073741824 + d.toNat * 65536 + imm.toNat)]
  | m, .qmovi4 d imm => [BitVec.ofNat 32 (201326592 + m.toNat * 1073741824 + d.toNat * 65536 + imm.toNat)]
  | m, .fmini d imm => [BitVec.ofNat 32 (205520896 + m.toNat * 1073741824 + d.toNat * 65536 + imm.toNat)]
  | m, .fmaxi d imm => [BitVec.ofNat 32 (209715200 + m.toNat * 1073741824 + d.toNat * 65536 + imm.toNat)]
  | m, .ffma d a b la lb r => [BitVec.ofNat 32 (268435456 + m.toNat * 1073741824 + d.toNat * 131072 + a.toNat * 2048 + b.toNat * 32 + la.toNat * 16 + lb.toNat * 8 + r.toNat)]
  | m, .fnma d a b la lb r => [BitVec.ofNat 32 (276824064 + m.toNat * 1073741824 + d.toNat * 131072 + a.toNat * 2048 + b.toNat * 32 + la.toNat * 16 + lb.toNat * 8 + r.toNat)]
  | m, .hfma2 d a b la lb => [BitVec.ofNat 32 (285212672 + m.toNat * 1073741824 + d.toNat * 131072 + a.toNat * 2048 + b.toNat * 32 + la.toNat * 16 + lb.toNat * 8)]
  | m, .imad d a b la lb h => [BitVec.ofNat 32 (293601280 + m.toNat * 1073741824 + d.toNat * 131072 + a.toNat * 2048 + b.toNat * 32 + la.toNat * 16 + lb.toNat * 8 + h.toNat)]
  | m, .dot4 d a b la lb => [BitVec.ofNat 32 (301989888 + m.toNat * 1073741824 + d.toNat * 131072 + a.toNat * 2048 + b.toNat * 32 + la.toNat * 16 + lb.toNat * 8)]
  | m, .dot8 d a b la lb => [BitVec.ofNat 32 (310378496 + m.toNat * 1073741824 + d.toNat * 131072 + a.toNat * 2048 + b.toNat * 32 + la.toNat * 16 + lb.toNat * 8)]
  | m, .dot2h d a b la lb => [BitVec.ofNat 32 (318767104 + m.toNat * 1073741824 + d.toNat * 131072 + a.toNat * 2048 + b.toNat * 32 + la.toNat * 16 + lb.toNat * 8)]
  | m, .bfi d a b la lb => [BitVec.ofNat 32 (327155712 + m.toNat * 1073741824 + d.toNat * 131072 + a.toNat * 2048 + b.toNat * 32 + la.toNat * 16 + lb.toNat * 8)]
  | m, .permb d a b la lb => [BitVec.ofNat 32 (335544320 + m.toNat * 1073741824 + d.toNat * 131072 + a.toNat * 2048 + b.toNat * 32 + la.toNat * 16 + lb.toNat * 8)]
  | m, .sel d a b la lb p => [BitVec.ofNat 32 (343932928 + m.toNat * 1073741824 + d.toNat * 131072 + a.toNat * 2048 + b.toNat * 32 + la.toNat * 16 + lb.toNat * 8 + p.toNat)]
  | m, .fclamp d a b la lb => [BitVec.ofNat 32 (352321536 + m.toNat * 1073741824 + d.toNat * 131072 + a.toNat * 2048 + b.toNat * 32 + la.toNat * 16 + lb.toNat * 8)]
  | m, .imadw d a b la lb => [BitVec.ofNat 32 (360710144 + m.toNat * 1073741824 + d.toNat * 131072 + a.toNat * 2048 + b.toNat * 32 + la.toNat * 16 + lb.toNat * 8)]
  | m, .mov d a la => [BitVec.ofNat 32 (536870912 + m.toNat * 1073741824 + d.toNat * 32768 + a.toNat * 512 + la.toNat * 256)]
  | m, .fabs d a la => [BitVec.ofNat 32 (538968064 + m.toNat * 1073741824 + d.toNat * 32768 + a.toNat * 512 + la.toNat * 256)]
  | m, .fneg d a la => [BitVec.ofNat 32 (541065216 + m.toNat * 1073741824 + d.toNat * 32768 + a.toNat * 512 + la.toNat * 256)]
  | m, .ineg d a la => [BitVec.ofNat 32 (543162368 + m.toNat * 1073741824 + d.toNat * 32768 + a.toNat * 512 + la.toNat * 256)]
  | m, .not d a la => [BitVec.ofNat 32 (545259520 + m.toNat * 1073741824 + d.toNat * 32768 + a.toNat * 512 + la.toNat * 256)]
  | m, .popc d a la => [BitVec.ofNat 32 (547356672 + m.toNat * 1073741824 + d.toNat * 32768 + a.toNat * 512 + la.toNat * 256)]
  | m, .clz d a la => [BitVec.ofNat 32 (549453824 + m.toNat * 1073741824 + d.toNat * 32768 + a.toNat * 512 + la.toNat * 256)]
  | m, .brev d a la => [BitVec.ofNat 32 (551550976 + m.toNat * 1073741824 + d.toNat * 32768 + a.toNat * 512 + la.toNat * 256)]
  | m, .frcp d a la => [BitVec.ofNat 32 (553648128 + m.toNat * 1073741824 + d.toNat * 32768 + a.toNat * 512 + la.toNat * 256)]
  | m, .frsq d a la => [BitVec.ofNat 32 (555745280 + m.toNat * 1073741824 + d.toNat * 32768 + a.toNat * 512 + la.toNat * 256)]
  | m, .fsqrt d a la => [BitVec.ofNat 32 (557842432 + m.toNat * 1073741824 + d.toNat * 32768 + a.toNat * 512 + la.toNat * 256)]
  | m, .fexp2 d a la => [BitVec.ofNat 32 (559939584 + m.toNat * 1073741824 + d.toNat * 32768 + a.toNat * 512 + la.toNat * 256)]
  | m, .flog2 d a la => [BitVec.ofNat 32 (562036736 + m.toNat * 1073741824 + d.toNat * 32768 + a.toNat * 512 + la.toNat * 256)]
  | m, .fsin d a la => [BitVec.ofNat 32 (564133888 + m.toNat * 1073741824 + d.toNat * 32768 + a.toNat * 512 + la.toNat * 256)]
  | m, .fcos d a la => [BitVec.ofNat 32 (564133889 + m.toNat * 1073741824 + d.toNat * 32768 + a.toNat * 512 + la.toNat * 256)]
  | m, .ftanh d a la => [BitVec.ofNat 32 (566231040 + m.toNat * 1073741824 + d.toNat * 32768 + a.toNat * 512 + la.toNat * 256)]
  | m, .ftoi d a la => [BitVec.ofNat 32 (568328192 + m.toNat * 1073741824 + d.toNat * 32768 + a.toNat * 512 + la.toNat * 256)]
  | m, .itof d a la => [BitVec.ofNat 32 (570425344 + m.toNat * 1073741824 + d.toNat * 32768 + a.toNat * 512 + la.toNat * 256)]
  | m, .fcvt d a la h => [BitVec.ofNat 32 (572522496 + m.toNat * 1073741824 + d.toNat * 32768 + a.toNat * 512 + la.toNat * 256 + h.toNat)]
  | m, .hcvt d a la h => [BitVec.ofNat 32 (574619648 + m.toNat * 1073741824 + d.toNat * 32768 + a.toNat * 512 + la.toNat * 256 + h.toNat)]
  | m, .qcvt d a la b => [BitVec.ofNat 32 (576716800 + m.toNat * 1073741824 + d.toNat * 32768 + a.toNat * 512 + la.toNat * 256 + b.toNat)]
  | m, .qunp d a la b => [BitVec.ofNat 32 (578813952 + m.toNat * 1073741824 + d.toNat * 32768 + a.toNat * 512 + la.toNat * 256 + b.toNat)]
  | m, .q4cvt d a la n => [BitVec.ofNat 32 (580911104 + m.toNat * 1073741824 + d.toNat * 32768 + a.toNat * 512 + la.toNat * 256 + n.toNat)]
  | m, .q4unp d a la n => [BitVec.ofNat 32 (583008256 + m.toNat * 1073741824 + d.toNat * 32768 + a.toNat * 512 + la.toNat * 256 + n.toNat)]
  | m, .frnd d a la r => [BitVec.ofNat 32 (585105408 + m.toNat * 1073741824 + d.toNat * 32768 + a.toNat * 512 + la.toNat * 256 + r.toNat)]
  | m, .fclass d a la => [BitVec.ofNat 32 (587202560 + m.toNat * 1073741824 + d.toNat * 32768 + a.toNat * 512 + la.toNat * 256)]
  | m, .laneid d => [BitVec.ofNat 32 (589299712 + m.toNat * 1073741824 + d.toNat * 32768)]
  | m, .icmp p a b la lb c k => [BitVec.ofNat 32 (671088640 + m.toNat * 1073741824 + p.toNat * 524288 + a.toNat * 8192 + b.toNat * 128 + la.toNat * 64 + lb.toNat * 32 + c.toNat * 8 + k.toNat)]
  | m, .icmpn p a b la lb c k => [BitVec.ofNat 32 (675282944 + m.toNat * 1073741824 + p.toNat * 524288 + a.toNat * 8192 + b.toNat * 128 + la.toNat * 64 + lb.toNat * 32 + c.toNat * 8 + k.toNat)]
  | m, .fcmp p a b la lb c k => [BitVec.ofNat 32 (679477248 + m.toNat * 1073741824 + p.toNat * 524288 + a.toNat * 8192 + b.toNat * 128 + la.toNat * 64 + lb.toNat * 32 + c.toNat * 8 + k.toNat)]
  | m, .testb p a b la lb c => [BitVec.ofNat 32 (683671552 + m.toNat * 1073741824 + p.toNat * 524288 + a.toNat * 8192 + b.toNat * 128 + la.toNat * 64 + lb.toNat * 32 + c.toNat * 8)]
  | m, .plog p f q r c => [BitVec.ofNat 32 (687865856 + m.toNat * 1073741824 + p.toNat * 524288 + f.toNat * 131072 + q.toNat * 8192 + r.toNat * 128 + c.toNat * 8)]
  | m, .scan d a s la k => [BitVec.ofNat 32 (805306368 + m.toNat * 1073741824 + d.toNat * 65536 + a.toNat * 1024 + s.toNat * 16 + la.toNat * 8 + k.toNat)]
  | m, .scanx d a s la k => [BitVec.ofNat 32 (809500672 + m.toNat * 1073741824 + d.toNat * 65536 + a.toNat * 1024 + s.toNat * 16 + la.toNat * 8 + k.toNat)]
  | m, .reduce a s la k => [BitVec.ofNat 32 (813694976 + m.toNat * 1073741824 + a.toNat * 1024 + s.toNat * 16 + la.toNat * 8 + k.toNat)]
  | m, .prevLane d a s la => [BitVec.ofNat 32 (817889280 + m.toNat * 1073741824 + d.toNat * 65536 + a.toNat * 1024 + s.toNat * 16 + la.toNat * 8)]
  | m, .nextLane d a s la => [BitVec.ofNat 32 (822083584 + m.toNat * 1073741824 + d.toNat * 65536 + a.toNat * 1024 + s.toNat * 16 + la.toNat * 8)]
  | m, .shup d a s la g => [BitVec.ofNat 32 (826277888 + m.toNat * 1073741824 + d.toNat * 65536 + a.toNat * 1024 + s.toNat * 16 + la.toNat * 8 + g.toNat * 4)]
  | m, .shdn d a s la g => [BitVec.ofNat 32 (830472192 + m.toNat * 1073741824 + d.toNat * 65536 + a.toNat * 1024 + s.toNat * 16 + la.toNat * 8 + g.toNat * 4)]
  | m, .bfly d a s la g => [BitVec.ofNat 32 (834666496 + m.toNat * 1073741824 + d.toNat * 65536 + a.toNat * 1024 + s.toNat * 16 + la.toNat * 8 + g.toNat * 4)]
  | m, .perm d a s la g => [BitVec.ofNat 32 (838860800 + m.toNat * 1073741824 + d.toNat * 65536 + a.toNat * 1024 + s.toNat * 16 + la.toNat * 8 + g.toNat * 4)]
  | m, .bcastl d a s la g => [BitVec.ofNat 32 (843055104 + m.toNat * 1073741824 + d.toNat * 65536 + a.toNat * 1024 + s.toNat * 16 + la.toNat * 8 + g.toNat * 4)]
  | m, .vote p s => [BitVec.ofNat 32 (847249408 + m.toNat * 1073741824 + p.toNat * 1024 + s.toNat * 16)]
  | m, .matchEq d a s la => [BitVec.ofNat 32 (851443712 + m.toNat * 1073741824 + d.toNat * 65536 + a.toNat * 1024 + s.toNat * 16 + la.toNat * 8)]
  | m, .gets d s => [BitVec.ofNat 32 (855638016 + m.toNat * 1073741824 + d.toNat * 65536 + s.toNat * 16)]
  | m, .puts a s la => [BitVec.ofNat 32 (859832320 + m.toNat * 1073741824 + a.toNat * 1024 + s.toNat * 16 + la.toNat * 8)]
  | m, .ldg8n t a s la imm => [BitVec.ofNat 32 (402653184 + m.toNat * 1073741824 + t.toNat * 65536 + a.toNat * 1024 + s.toNat * 64 + la.toNat * 32 + imm.toNat)]
  | m, .ldg8i t a s la imm => [BitVec.ofNat 32 (406847488 + m.toNat * 1073741824 + t.toNat * 65536 + a.toNat * 1024 + s.toNat * 64 + la.toNat * 32 + imm.toNat)]
  | m, .ldg16n t a s la imm => [BitVec.ofNat 32 (411041792 + m.toNat * 1073741824 + t.toNat * 65536 + a.toNat * 1024 + s.toNat * 64 + la.toNat * 32 + imm.toNat)]
  | m, .ldg16i t a s la imm => [BitVec.ofNat 32 (415236096 + m.toNat * 1073741824 + t.toNat * 65536 + a.toNat * 1024 + s.toNat * 64 + la.toNat * 32 + imm.toNat)]
  | m, .ldg32 t a s la imm => [BitVec.ofNat 32 (419430400 + m.toNat * 1073741824 + t.toNat * 65536 + a.toNat * 1024 + s.toNat * 64 + la.toNat * 32 + imm.toNat)]
  | m, .ldg64 t a s la imm => [BitVec.ofNat 32 (423624704 + m.toNat * 1073741824 + t.toNat * 65536 + a.toNat * 1024 + s.toNat * 64 + la.toNat * 32 + imm.toNat)]
  | m, .ldg128 t a s la imm => [BitVec.ofNat 32 (427819008 + m.toNat * 1073741824 + t.toNat * 65536 + a.toNat * 1024 + s.toNat * 64 + la.toNat * 32 + imm.toNat)]
  | m, .stg8 t a s la imm => [BitVec.ofNat 32 (432013312 + m.toNat * 1073741824 + t.toNat * 65536 + a.toNat * 1024 + s.toNat * 64 + la.toNat * 32 + imm.toNat)]
  | m, .stg16 t a s la imm => [BitVec.ofNat 32 (436207616 + m.toNat * 1073741824 + t.toNat * 65536 + a.toNat * 1024 + s.toNat * 64 + la.toNat * 32 + imm.toNat)]
  | m, .stg32 t a s la imm => [BitVec.ofNat 32 (440401920 + m.toNat * 1073741824 + t.toNat * 65536 + a.toNat * 1024 + s.toNat * 64 + la.toNat * 32 + imm.toNat)]
  | m, .stg64 t a s la imm => [BitVec.ofNat 32 (444596224 + m.toNat * 1073741824 + t.toNat * 65536 + a.toNat * 1024 + s.toNat * 64 + la.toNat * 32 + imm.toNat)]
  | m, .stg128 t a s la imm => [BitVec.ofNat 32 (448790528 + m.toNat * 1073741824 + t.toNat * 65536 + a.toNat * 1024 + s.toNat * 64 + la.toNat * 32 + imm.toNat)]
  | m, .ldp32 t a s la imm => [BitVec.ofNat 32 (452984832 + m.toNat * 1073741824 + t.toNat * 65536 + a.toNat * 1024 + s.toNat * 64 + la.toNat * 32 + imm.toNat)]
  | m, .ldp64 t a s la imm => [BitVec.ofNat 32 (457179136 + m.toNat * 1073741824 + t.toNat * 65536 + a.toNat * 1024 + s.toNat * 64 + la.toNat * 32 + imm.toNat)]
  | m, .ldp128 t a s la imm => [BitVec.ofNat 32 (461373440 + m.toNat * 1073741824 + t.toNat * 65536 + a.toNat * 1024 + s.toNat * 64 + la.toNat * 32 + imm.toNat)]
  | m, .stp32 t a s la imm => [BitVec.ofNat 32 (465567744 + m.toNat * 1073741824 + t.toNat * 65536 + a.toNat * 1024 + s.toNat * 64 + la.toNat * 32 + imm.toNat)]
  | m, .stp64 t a s la imm => [BitVec.ofNat 32 (469762048 + m.toNat * 1073741824 + t.toNat * 65536 + a.toNat * 1024 + s.toNat * 64 + la.toNat * 32 + imm.toNat)]
  | m, .stp128 t a s la imm => [BitVec.ofNat 32 (473956352 + m.toNat * 1073741824 + t.toNat * 65536 + a.toNat * 1024 + s.toNat * 64 + la.toNat * 32 + imm.toNat)]
  | m, .atomg t a s la c => [BitVec.ofNat 32 (478150656 + m.toNat * 1073741824 + t.toNat * 65536 + a.toNat * 1024 + s.toNat * 64 + la.toNat * 32 + c.toNat)]
  | m, .redg t a s la c => [BitVec.ofNat 32 (482344960 + m.toNat * 1073741824 + t.toNat * 65536 + a.toNat * 1024 + s.toNat * 64 + la.toNat * 32 + c.toNat)]
  | m, .atomp t a s la c => [BitVec.ofNat 32 (486539264 + m.toNat * 1073741824 + t.toNat * 65536 + a.toNat * 1024 + s.toNat * 64 + la.toNat * 32 + c.toNat)]
  | m, .prefg a s la imm => [BitVec.ofNat 32 (490733568 + m.toNat * 1073741824 + a.toNat * 1024 + s.toNat * 64 + la.toNat * 32 + imm.toNat)]
  | m, .lda32 t a s la c => [BitVec.ofNat 32 (494927872 + m.toNat * 1073741824 + t.toNat * 65536 + a.toNat * 1024 + s.toNat * 64 + la.toNat * 32 + c.toNat)]
  | m, .lda64 t a s la c => [BitVec.ofNat 32 (499122176 + m.toNat * 1073741824 + t.toNat * 65536 + a.toNat * 1024 + s.toNat * 64 + la.toNat * 32 + c.toNat)]
  | m, .stl32 t a s la c => [BitVec.ofNat 32 (503316480 + m.toNat * 1073741824 + t.toNat * 65536 + a.toNat * 1024 + s.toNat * 64 + la.toNat * 32 + c.toNat)]
  | m, .stl64 t a s la c => [BitVec.ofNat 32 (507510784 + m.toNat * 1073741824 + t.toNat * 65536 + a.toNat * 1024 + s.toNat * 64 + la.toNat * 32 + c.toNat)]
  | m, .ldf32 t a la imm => [BitVec.ofNat 32 (511705088 + m.toNat * 1073741824 + t.toNat * 65536 + a.toNat * 1024 + la.toNat * 32 + imm.toNat)]
  | m, .stf32 t a la imm => [BitVec.ofNat 32 (515899392 + m.toNat * 1073741824 + t.toNat * 65536 + a.toNat * 1024 + la.toNat * 32 + imm.toNat)]
  | _, .guard p n w => [BitVec.ofNat 32 (939524096 + p.toNat * 16777216 + n.toNat * 8388608), w]
  | m, .sadd d a b => [BitVec.ofNat 32 (2147483648 + m.toNat * 1073741824 + d.toNat * 32768 + a.toNat * 512 + b.toNat * 8)]
  | m, .ssub d a b => [BitVec.ofNat 32 (2149580800 + m.toNat * 1073741824 + d.toNat * 32768 + a.toNat * 512 + b.toNat * 8)]
  | m, .smul d a b => [BitVec.ofNat 32 (2151677952 + m.toNat * 1073741824 + d.toNat * 32768 + a.toNat * 512 + b.toNat * 8)]
  | m, .smulh d a b k => [BitVec.ofNat 32 (2153775104 + m.toNat * 1073741824 + d.toNat * 32768 + a.toNat * 512 + b.toNat * 8 + k.toNat)]
  | m, .smin d a b k => [BitVec.ofNat 32 (2155872256 + m.toNat * 1073741824 + d.toNat * 32768 + a.toNat * 512 + b.toNat * 8 + k.toNat)]
  | m, .smax d a b k => [BitVec.ofNat 32 (2157969408 + m.toNat * 1073741824 + d.toNat * 32768 + a.toNat * 512 + b.toNat * 8 + k.toNat)]
  | m, .sand d a b => [BitVec.ofNat 32 (2160066560 + m.toNat * 1073741824 + d.toNat * 32768 + a.toNat * 512 + b.toNat * 8)]
  | m, .sor d a b => [BitVec.ofNat 32 (2162163712 + m.toNat * 1073741824 + d.toNat * 32768 + a.toNat * 512 + b.toNat * 8)]
  | m, .sxor d a b => [BitVec.ofNat 32 (2164260864 + m.toNat * 1073741824 + d.toNat * 32768 + a.toNat * 512 + b.toNat * 8)]
  | m, .sshl d a b => [BitVec.ofNat 32 (2166358016 + m.toNat * 1073741824 + d.toNat * 32768 + a.toNat * 512 + b.toNat * 8)]
  | m, .sshr d a b => [BitVec.ofNat 32 (2168455168 + m.toNat * 1073741824 + d.toNat * 32768 + a.toNat * 512 + b.toNat * 8)]
  | m, .sshra d a b => [BitVec.ofNat 32 (2170552320 + m.toNat * 1073741824 + d.toNat * 32768 + a.toNat * 512 + b.toNat * 8)]
  | m, .sadd64 d a b => [BitVec.ofNat 32 (2172649472 + m.toNat * 1073741824 + d.toNat * 32768 + a.toNat * 512 + b.toNat * 8)]
  | m, .scmp d a b k => [BitVec.ofNat 32 (2174746624 + m.toNat * 1073741824 + d.toNat * 32768 + a.toNat * 512 + b.toNat * 8 + k.toNat)]
  | m, .sfadd d a b => [BitVec.ofNat 32 (2176843776 + m.toNat * 1073741824 + d.toNat * 32768 + a.toNat * 512 + b.toNat * 8)]
  | m, .sfmul d a b => [BitVec.ofNat 32 (2178940928 + m.toNat * 1073741824 + d.toNat * 32768 + a.toNat * 512 + b.toNat * 8)]
  | m, .sdivn d a b => [BitVec.ofNat 32 (2181038080 + m.toNat * 1073741824 + d.toNat * 32768 + a.toNat * 512 + b.toNat * 8)]
  | m, .spopc d a => [BitVec.ofNat 32 (2183135232 + m.toNat * 1073741824 + d.toNat * 32768 + a.toNat * 512)]
  | m, .sff1 d a => [BitVec.ofNat 32 (2185232384 + m.toNat * 1073741824 + d.toNat * 32768 + a.toNat * 512)]
  | m, .smovi d imm => [BitVec.ofNat 32 (2281701376 + m.toNat * 1073741824 + d.toNat * 65536 + imm.toNat)]
  | m, .smovhi d imm => [BitVec.ofNat 32 (2285895680 + m.toNat * 1073741824 + d.toNat * 65536 + imm.toNat)]
  | m, .saddi d imm => [BitVec.ofNat 32 (2290089984 + m.toNat * 1073741824 + d.toNat * 65536 + imm.toNat)]
  | m, .sandi d imm => [BitVec.ofNat 32 (2294284288 + m.toNat * 1073741824 + d.toNat * 65536 + imm.toNat)]
  | m, .sori d imm => [BitVec.ofNat 32 (2298478592 + m.toNat * 1073741824 + d.toNat * 65536 + imm.toNat)]
  | m, .sxori d imm => [BitVec.ofNat 32 (2302672896 + m.toNat * 1073741824 + d.toNat * 65536 + imm.toNat)]
  | m, .sshli d imm => [BitVec.ofNat 32 (2306867200 + m.toNat * 1073741824 + d.toNat * 65536 + imm.toNat)]
  | m, .sshri d imm => [BitVec.ofNat 32 (2311061504 + m.toNat * 1073741824 + d.toNat * 65536 + imm.toNat)]
  | m, .smuli d imm => [BitVec.ofNat 32 (2315255808 + m.toNat * 1073741824 + d.toNat * 65536 + imm.toNat)]
  | m, .smov32 d imm => [BitVec.ofNat 32 (2952790016 + m.toNat * 1073741824 + d.toNat * 65536), imm]
  | m, .braL imm => [BitVec.ofNat 32 (2956984320 + m.toNat * 1073741824), imm]
  | m, .callL d imm => [BitVec.ofNat 32 (2961178624 + m.toNat * 1073741824 + d.toNat * 65536), imm]
  | m, .sadd32 d imm => [BitVec.ofNat 32 (2965372928 + m.toNat * 1073741824 + d.toNat * 65536), imm]
  | m, .bra o => [BitVec.ofNat 32 (2415919104 + m.toNat * 1073741824 + o.toNat)]
  | m, .bz a o => [BitVec.ofNat 32 (2424307712 + m.toNat * 1073741824 + a.toNat * 131072 + o.toNat)]
  | m, .bnz a o => [BitVec.ofNat 32 (2432696320 + m.toNat * 1073741824 + a.toNat * 131072 + o.toNat)]
  | m, .call a o => [BitVec.ofNat 32 (2441084928 + m.toNat * 1073741824 + a.toNat * 131072 + o.toNat)]
  | m, .brx a => [BitVec.ofNat 32 (2449473536 + m.toNat * 1073741824 + a.toNat * 131072)]
  | m, .bdiv p o => [BitVec.ofNat 32 (2457862144 + m.toNat * 1073741824 + p.toNat * 131072 + o.toNat)]
  | m, .bidx a o => [BitVec.ofNat 32 (2466250752 + m.toNat * 1073741824 + a.toNat * 131072 + o.toNat)]
  | m, .jset o => [BitVec.ofNat 32 (2474639360 + m.toNat * 1073741824 + o.toNat)]
  | m, .bvote t p o => [BitVec.ofNat 32 (2491416576 + m.toNat * 1073741824 + t.toNat * 1048576 + p.toNat * 131072 + o.toNat)]
  | m, .trap c => [BitVec.ofNat 32 (2516582400 + m.toNat * 1073741824 + c.toNat)]
  | m, .bar b s n => [BitVec.ofNat 32 (2818572288 + m.toNat * 1073741824 + b.toNat * 512 + s.toNat * 256 + n.toNat)]
  | m, .bara b s n => [BitVec.ofNat 32 (2820669440 + m.toNat * 1073741824 + b.toNat * 512 + s.toNat * 256 + n.toNat)]
  | m, .barw s n => [BitVec.ofNat 32 (2822766592 + m.toNat * 1073741824 + s.toNat * 256 + n.toNat)]
  | m, .fence k c => [BitVec.ofNat 32 (2824863744 + m.toNat * 1073741824 + k.toNat * 8 + c.toNat)]
  | m, .waitm a b imm => [BitVec.ofNat 32 (2826960896 + m.toNat * 1073741824 + a.toNat * 32768 + b.toNat * 512 + imm.toNat)]
  | m, .sleep imm => [BitVec.ofNat 32 (2831155200 + m.toNat * 1073741824 + imm.toNat)]
  | m, .getsr a n => [BitVec.ofNat 32 (2833252352 + m.toNat * 1073741824 + a.toNat * 32768 + n.toNat)]
  | m, .setsr a n => [BitVec.ofNat 32 (2835349504 + m.toNat * 1073741824 + a.toNat * 32768 + n.toNat)]
  | m, .fmtw a => [BitVec.ofNat 32 (2837446656 + m.toNat * 1073741824 + a.toNat * 32768)]
  | m, .fmtwRm r => [BitVec.ofNat 32 (2837446912 + m.toNat * 1073741824 + r.toNat)]
  | m, .hclaim h => [BitVec.ofNat 32 (2839543808 + m.toNat * 1073741824 + h.toNat)]
  | m, .hrel h => [BitVec.ofNat 32 (2841640960 + m.toNat * 1073741824 + h.toNat)]
  | m, .hwr a h => [BitVec.ofNat 32 (2843738112 + m.toNat * 1073741824 + a.toNat * 32768 + h.toNat)]
  | m, .hrd a h => [BitVec.ofNat 32 (2845835264 + m.toNat * 1073741824 + a.toNat * 32768 + h.toNat)]
  | m, .syscall imm => [BitVec.ofNat 32 (2852126720 + m.toNat * 1073741824 + imm.toNat)]
  | m, .talloc d k => [BitVec.ofNat 32 (2550136832 + m.toNat * 1073741824 + d.toNat * 131072 + k.toNat)]
  | m, .tfree d => [BitVec.ofNat 32 (2554331136 + m.toNat * 1073741824 + d.toNat * 131072)]
  | m, .tgive a g => [BitVec.ofNat 32 (2558525440 + m.toNat * 1073741824 + a.toNat * 4096 + g.toNat)]
  | m, .ttake d g => [BitVec.ofNat 32 (2562719744 + m.toNat * 1073741824 + d.toNat * 131072 + g.toNat)]
  | m, .tzero d => [BitVec.ofNat 32 (2566914048 + m.toNat * 1073741824 + d.toNat * 131072)]
  | m, .mma d a b w g r => [BitVec.ofNat 32 (2571108352 + m.toNat * 1073741824 + d.toNat * 131072 + a.toNat * 4096 + b.toNat * 128 + w.toNat * 64 + g.toNat * 32 + r.toNat)]
  | m, .mmas d a b g r => [BitVec.ofNat 32 (2575302656 + m.toNat * 1073741824 + d.toNat * 131072 + a.toNat * 4096 + b.toNat * 128 + g.toNat * 32 + r.toNat)]
  | m, .tcomp d a b => [BitVec.ofNat 32 (2579496960 + m.toNat * 1073741824 + d.toNat * 131072 + a.toNat * 4096 + b.toNat * 128)]
  | m, .tsoft d a b f c => [BitVec.ofNat 32 (2583691264 + m.toNat * 1073741824 + d.toNat * 131072 + a.toNat * 4096 + b.toNat * 128 + f.toNat * 8 + c.toNat)]
  | m, .tscale d a b n => [BitVec.ofNat 32 (2587885568 + m.toNat * 1073741824 + d.toNat * 131072 + a.toNat * 4096 + b.toNat * 128 + n.toNat)]
  | m, .tnorm d a b => [BitVec.ofNat 32 (2592079872 + m.toNat * 1073741824 + d.toNat * 131072 + a.toNat * 4096 + b.toNat * 128)]
  | m, .trowred d a k => [BitVec.ofNat 32 (2596274176 + m.toNat * 1073741824 + d.toNat * 131072 + a.toNat * 4096 + k.toNat)]
  | m, .tew d a b c f k => [BitVec.ofNat 32 (2600468480 + m.toNat * 1073741824 + d.toNat * 131072 + a.toNat * 4096 + b.toNat * 128 + c.toNat * 64 + f.toNat * 16 + k.toNat)]
  | m, .ttov a b r => [BitVec.ofNat 32 (2604662784 + m.toNat * 1073741824 + a.toNat * 4096 + b.toNat * 128 + r.toNat)]
  | m, .vtot d b r => [BitVec.ofNat 32 (2608857088 + m.toNat * 1073741824 + d.toNat * 131072 + b.toNat * 128 + r.toNat)]
  | m, .tarv a c => [BitVec.ofNat 32 (2613051392 + m.toNat * 1073741824 + a.toNat * 4096 + c.toNat)]
  | m, .tawt a p => [BitVec.ofNat 32 (2617245696 + m.toNat * 1073741824 + a.toNat * 4096 + p.toNat)]
  | m, .tstat a s => [BitVec.ofNat 32 (2621440000 + m.toNat * 1073741824 + a.toNat * 4096 + s.toNat)]
  | m, .sigq d a b => [BitVec.ofNat 32 (2625634304 + m.toNat * 1073741824 + d.toNat * 131072 + a.toNat * 4096 + b.toNat * 128)]
  | m, .cpy q a b d => [BitVec.ofNat 32 (2684354560 + m.toNat * 1073741824 + q.toNat * 262144 + a.toNat * 4096 + b.toNat * 64 + d.toNat)]
  | m, .tld q a t r => [BitVec.ofNat 32 (2688548864 + m.toNat * 1073741824 + q.toNat * 262144 + a.toNat * 4096 + t.toNat * 64 + r.toNat)]
  | m, .tst q a t r => [BitVec.ofNat 32 (2692743168 + m.toNat * 1073741824 + q.toNat * 262144 + a.toNat * 4096 + t.toNat * 64 + r.toNat)]
  | m, .wbld q a e s w c => [BitVec.ofNat 32 (2696937472 + m.toNat * 1073741824 + q.toNat * 262144 + a.toNat * 4096 + e.toNat * 64 + s.toNat * 8 + w.toNat * 2 + c.toNat)]
  | m, .gath q a t vblk l => [BitVec.ofNat 32 (2701131776 + m.toNat * 1073741824 + q.toNat * 262144 + a.toNat * 4096 + t.toNat * 64 + vblk.toNat * 2 + l.toNat)]
  | m, .sigf q a b r => [BitVec.ofNat 32 (2705326080 + m.toNat * 1073741824 + q.toNat * 262144 + a.toNat * 4096 + b.toNat * 64 + r.toNat)]
  | m, .cpyf q a b d => [BitVec.ofNat 32 (2709520384 + m.toNat * 1073741824 + q.toNat * 262144 + a.toNat * 4096 + b.toNat * 64 + d.toNat)]
  | m, .mcst q a b => [BitVec.ofNat 32 (2713714688 + m.toNat * 1073741824 + q.toNat * 262144 + a.toNat * 4096 + b.toNat * 64)]
  | m, .coll q a k => [BitVec.ofNat 32 (2717908992 + m.toNat * 1073741824 + q.toNat * 262144 + a.toNat * 4096 + k.toNat)]
  | m, .enc q a b => [BitVec.ofNat 32 (2722103296 + m.toNat * 1073741824 + q.toNat * 262144 + a.toNat * 4096 + b.toNat * 64)]
  | m, .batch q e => [BitVec.ofNat 32 (2726297600 + m.toNat * 1073741824 + q.toNat * 262144 + e.toNat)]
  | m, .waittl q l => [BitVec.ofNat 32 (2730491904 + m.toNat * 1073741824 + q.toNat * 262144 + l.toNat)]
  | m, .testtl q a l => [BitVec.ofNat 32 (2734686208 + m.toNat * 1073741824 + q.toNat * 262144 + a.toNat * 4096 + l.toNat)]
  | m, .cancel q => [BitVec.ofNat 32 (2738880512 + m.toNat * 1073741824 + q.toNat * 262144)]
  | m, .qmov q a n f => [BitVec.ofNat 32 (2743074816 + m.toNat * 1073741824 + q.toNat * 262144 + a.toNat * 4096 + n.toNat * 64 + f.toNat)]
  | m, .pagein q a => [BitVec.ofNat 32 (2747269120 + m.toNat * 1073741824 + q.toNat * 262144 + a.toNat * 4096)]
  | m, .rstepBegin a b => [BitVec.ofNat 32 (2751463424 + m.toNat * 1073741824 + a.toNat * 4096 + b.toNat * 64)]
  | m, .rstepEnd a => [BitVec.ofNat 32 (2751463425 + m.toNat * 1073741824 + a.toNat * 4096)]
  | m, .rwiden a w => [BitVec.ofNat 32 (2755657728 + m.toNat * 1073741824 + a.toNat * 4096 + w.toNat)]
  | m, .rnarrow a w => [BitVec.ofNat 32 (2759852032 + m.toNat * 1073741824 + a.toNat * 4096 + w.toNat)]
  | m, .rview a b => [BitVec.ofNat 32 (2764046336 + m.toNat * 1073741824 + a.toNat * 4096 + b.toNat * 64)]
  | m, .rpub q a t => [BitVec.ofNat 32 (2768240640 + m.toNat * 1073741824 + q.toNat * 262144 + a.toNat * 4096 + t.toNat * 64)]
  | m, .kvalloc a b => [BitVec.ofNat 32 (2772434944 + m.toNat * 1073741824 + a.toNat * 4096 + b.toNat * 64)]
  | m, .kvrel q a => [BitVec.ofNat 32 (2776629248 + m.toNat * 1073741824 + q.toNat * 262144 + a.toNat * 4096)]
  | m, .kvapp q a t => [BitVec.ofNat 32 (2780823552 + m.toNat * 1073741824 + q.toNat * 262144 + a.toNat * 4096 + t.toNat * 64)]
  | m, .kvappMem q a => [BitVec.ofNat 32 (2780823553 + m.toNat * 1073741824 + q.toNat * 262144 + a.toNat * 4096)]
  | m, .kvflush q a => [BitVec.ofNat 32 (2785017856 + m.toNat * 1073741824 + q.toNat * 262144 + a.toNat * 4096)]
  | m, .join => [BitVec.ofNat 32 (2483027968 + m.toNat * 1073741824)]
  | m, .exit => [BitVec.ofNat 32 (2499805184 + m.toNat * 1073741824)]
  | m, .joint => [BitVec.ofNat 32 (2508193792 + m.toNat * 1073741824)]
  | m, .bkpt => [BitVec.ofNat 32 (2524971008 + m.toNat * 1073741824)]
  | m, .yield => [BitVec.ofNat 32 (2829058048 + m.toNat * 1073741824)]
  | m, .snap => [BitVec.ofNat 32 (2847932416 + m.toNat * 1073741824)]
  | m, .resume => [BitVec.ofNat 32 (2850029568 + m.toNat * 1073741824)]
  | _, .longLatencyResult => []
  | _, .loadDataReturn => []
  | _, .storePerformed => []
  | _, .markerRelease => []
  | _, .jointTimeout => []
  | _, .memberTimeout => []
  | _, .waitmWake => []
  | _, .sleepExpiry => []
  | _, .yieldExpiry => []
  | _, .syscallDone => []
  | _, .translationWalk => []
  | _, .engineOpStart => []
  | _, .matrixKstep => []
  | _, .engineOpComplete => []
  | _, .tileSlotRelease => []
  | _, .blockRelease => []
  | _, .teamHalt => []
  | _, .handlerStart => []
  | _, .teamRetire => []
  | _, .preemption => []
  | _, .registerEvict => []
  | _, .waitmEvict => []
  | _, .readmit => []
  | _, .doorbell => []
  | _, .nop => []
  | _, .launch => []
  | _, .rlaunch => []
  | _, .copy => []
  | _, .signal => []
  | _, .wait => []
  | _, .waitSatisfied => []
  | _, .cond => []
  | _, .contract => []
  | _, .mark => []
  | _, .packetStart => []
  | _, .clusterPlace => []
  | _, .coopReserve => []
  | _, .teamStart => []
  | _, .contractPeriod => []
  | _, .contractBudget => []
  | _, .contractDeadline => []
  | _, .viewCommit => []
  | _, .migratePage => []
  | _, .migrationCounterHalve => []
  | _, .patrolScrub => []
  | _, .linkMessage => []
  | _, .adminDoorbell => []
  | _, .bind => []
  | _, .unbind => []
  | _, .queueSet => []
  | _, .queueReset => []
  | _, .tableUpdate => []
  | _, .faultReply => []
  | _, .savePool => []
  | _, .blockPool => []
  | _, .sequenceRetire => []
  | _, .demote => []
  | _, .policy => []
  | _, .tailShare => []
  | _, .snapArm => []
  | _, .preEmpt => []
  | _, .debug => []
  | _, .fwWrite => []
  | _, .fwActivate => []
  | _, .svnCommit => []
  | _, .attest => []
  | _, .identity => []
  | _, .packageReset => []
  | _, .recoveryGo => []
  | _, .powerOff => []
  | _, .powerCap => []
  | _, .thermalCap => []
  | _, .thermalCapRelease => []
  | _, .thermalShutdown => []
  | _, .cxlPortFailure => []
  | _, .snapshotTrigger => []
  | _, .fabricContextCreate => []
  | _, .fabricContextDestroy => []
  | _, .exportTableWrite => []
  | _, .sessionOpen => []
  | _, .sessionClose => []
  | _, .registerWrite => []
  | _, .flitReceive => []
  | _, .linkRetrain => []
  | _, .lossOfSignal => []
  | _, .configurationRecord => []
  | _, .portReenable => []
  | _, .read => []
  | _, .write => []
  | _, .atomic => []
  | _, .reduction => []
  | _, .multicastWrite => []
  | _, .multicastReduction => []
  | _, .trimmedHeader => []
  | _, .readResponse => []
  | _, .ack => []
  | _, .atomicResponse => []
  | _, .negative => []
  | _, .resendRequest => []
  | _, .resend => []
  | _, .aggregatedAck => []
  | _, .collectiveResult => []
  | _, .fabricTimeout => []
  | _, .multicastTimeout => []
  | _, .collectiveTimeout => []
  | _, .softError => []
  | _, .hostLinkDown => []
  | _, .hostLinkUp => []
  | _, .holdEnd => []
  | _, .reservedPacketType => []
  | _, .atomicResultReturn => []
  | _, .padWordWritten => []
  | _, .viewRegistersWritten => []

/-- The bytes of an instruction, as memory holds them (R57). -/
def encodeBytes (m : Bool) (i : Instr) : List Byte := (encode m i).flatMap wordBytes

end Sys2Proof
end

