-- ==== Sys2Proof/Config.lean ====
section
/-! DEFINITION. What one device of the KX8 family fixes and the manual leaves open, as constants without a body: nothing can
evaluate them, so what is proved holds whatever they are. The numbers in brackets are entries of the assumption log. -/
namespace Sys2Proof.Config

/-- The function unit's own result bits within the accuracy of R94 (entry 10); used only where they keep the stated bound. -/
opaque rsqBits : Word → Word
opaque exp2Bits : Word → Word
opaque log2Bits : Word → Word
opaque sinBits : Word → Word
opaque cosBits : Word → Word
opaque tanhBits : Word → Word

/-- Ticks (1/18 ns) that pass in the step with this number (entry 1). -/
opaque elapsed : Nat → Nat

/-- How many instructions, of 0 to 2, a sibling issues in its skid (R278; entry 11), by number of the draw. -/
opaque skid : Nat → Nat

/-- A choice the manual leaves to the device (plane, spine, frame, die, order; entry 12), by number of the draw. -/
opaque choice : Nat → Nat

/-- The signature of a message with the identity key (R332; entry 13). -/
opaque sign : List Byte → List Byte

/-- The identity certificate and the serial number of R330, R331, burnt in at manufacture (entry 13). -/
opaque certificate : List Byte
opaque serial : Dword

/-- The bitstream an encoder makes of a frame, which is never empty: its first byte and the others, by session entry, frame bytes, capacity
(R363; entry 14). -/
opaque bitstream : List Byte → List Byte → Nat → Byte × List Byte

/-- How many snapshot banks of engines there are (R290, R358; entry 51). -/
opaque engineBanks : Nat

/-- Where the content of a snapshot bank stands in it (R290, R358; entry 51): what the bank holds, byte offset. -/
opaque bankWord : List Nat → Nat → Word

/-- The package's power draw in mW by time (R358; entry 14). -/
opaque powerDraw : Nat → Word

end Sys2Proof.Config
end

