-- ==== Sys2Proof/Machine/Float.lean ====
section
/-! DEFINITION. Floating point (02, R94): formats, exact values, rounding once, special values, conversions and the function
units. A float value is decoded to an exact dyadic number, combined exactly, and rounded at the end. -/
namespace Sys2Proof.Machine

/-- A float format (R41, R43, R44): width, fraction bits, bias, code of the largest finite value, code of infinity if there is
one, first NaN magnitude code, and the NaN the KX8 produces. -/
structure FF where
  width : Nat
  man : Nat
  bias : Nat
  maxC : Nat
  infC : Option Nat
  nanMin : Nat
  nan : Nat

def fp32 : FF := ⟨32, 23, 127, 0x7F7FFFFF, some 0x7F800000, 0x7F800001, 0x7FC00000⟩
def fp16 : FF := ⟨16, 10, 15, 0x7BFF, some 0x7C00, 0x7C01, 0x7E00⟩
def bf16 : FF := ⟨16, 7, 127, 0x7F7F, some 0x7F80, 0x7F81, 0x7FC0⟩
def e4m3 : FF := ⟨8, 3, 7, 0x7E, none, 0x7F, 0x7F⟩
def e5m2 : FF := ⟨8, 2, 15, 0x7B, some 0x7C, 0x7D, 0x7F⟩
def e2m1 : FF := ⟨4, 1, 1, 7, none, 8, 0⟩

/-- An exact float value: NaN, an infinity, or (−1)^neg × m × 2^e (a zero keeps its sign). -/
inductive FV where
  | nan
  | inf (neg : Bool)
  | fin (neg : Bool) (m : Nat) (e : Int)
deriving DecidableEq, Repr

/-- The exponent of the smallest subnormal of a format. -/
def FF.emin (f : FF) : Int := 1 - (f.bias : Int) - f.man

/-- The value of a code (R41, R43, R44). -/
def FF.dec (f : FF) (c : Nat) : FV :=
  let neg := c / 2 ^ (f.width - 1) % 2 == 1
  let mag := c % 2 ^ (f.width - 1)
  if f.infC = some mag then .inf neg
  else if f.nanMin ≤ mag then .nan
  else
    let x := mag / 2 ^ f.man
    let t := mag % 2 ^ f.man
    if x = 0 then .fin neg t f.emin else .fin neg (t + 2 ^ f.man) ((x : Int) - 1 + f.emin)

/-- Put a sign on a magnitude code. -/
def FF.signed (f : FF) (neg : Bool) (mag : Nat) : Nat := if neg then mag + 2 ^ (f.width - 1) else mag

/-- The number of bits of a positive number. -/
def bitLen (m : Nat) : Nat := if m = 0 then 0 else Nat.log2 m + 1

/-- Does rounding mode rm (R46) move the magnitude up, given the sign, the lowest kept bit and how the dropped part compares
with half: 0 nothing dropped, 1 below, 2 equal, 3 above? -/
def roundUp (rm : Nat) (neg odd : Bool) (part : Nat) : Bool :=
  match rm with
  | 0 => part == 3 || (part == 2 && odd)
  | 1 => false
  | 2 => part != 0 && !neg
  | 3 => part != 0 && neg
  | _ => part == 3 || part == 2

/-- m × 2^e, with `sticky` saying that a little less than one unit of m was cut off, as an integer multiple of 2^q under rm.
Where `sticky` is set, callers supply m with more bits than are kept. -/
def roundAt (rm : Nat) (neg : Bool) (m : Nat) (e q : Int) (sticky : Bool) : Nat :=
  if q ≤ e then m * 2 ^ (e - q).toNat
  else
    let sh := (q - e).toNat
    let k := m / 2 ^ sh
    let r := m % 2 ^ sh
    let half := 2 ^ (sh - 1)
    let part :=
      if r = 0 && !sticky then 0
      else if r < half then 1
      else if r = half && !sticky then 2
      else 3
    if roundUp rm neg (k % 2 == 1) part then k + 1 else k

/-- The magnitude code of a positive number rounded with unbounded exponent above and subnormals below (R46). -/
def FF.magnitude (f : FF) (rm : Nat) (neg : Bool) (m : Nat) (e : Int) (sticky : Bool) : Nat :=
  let q := max (e + (bitLen m : Int) - f.man - 1) f.emin
  let k := roundAt rm neg m e q sticky
  (q - f.emin).toNat * 2 ^ f.man + k

/-- The overflow rule of R46. -/
def FF.overflow (f : FF) (rm : Nat) (neg : Bool) : Nat :=
  let up := f.infC.getD f.maxC
  match rm with
  | 1 => f.maxC
  | 2 => if neg then f.maxC else up
  | 3 => if neg then up else f.maxC
  | _ => up

/-- Round an exact value, given with a sticky bit, to a code of the format (R46). -/
def FF.encS (f : FF) (rm : Nat) (sticky : Bool) : FV → Nat
  | .nan => f.nan
  | .inf neg => f.signed neg (f.infC.getD f.maxC)
  | .fin neg m e =>
    if m = 0 then f.signed neg 0
    else
      let c := f.magnitude rm neg m e sticky
      f.signed neg (if f.maxC < c then f.overflow rm neg else c)

/-- round(x, f, rm) of R39. -/
def FF.enc (f : FF) (rm : Nat) (x : FV) : Nat := f.encS rm false x

/-- R48: a subnormal FP32 result becomes a zero of its sign. -/
def flush (ftz : Bool) (c : Nat) : Nat :=
  let mag := c % 2 ^ 31
  if ftz && mag < 0x800000 then c - mag else c

/-- Negate. -/
def FV.neg : FV → FV
  | .nan => .nan
  | .inf n => .inf (!n)
  | .fin n m e => .fin (!n) m e

/-- A finite value as a multiple of 2^e, for e no greater than its own exponent. -/
def scaled (neg : Bool) (m : Nat) (x e : Int) : Int :=
  let k : Int := (m * 2 ^ (x - e).toNat : Nat)
  if neg then -k else k

/-- The exact sum; a zero from terms of opposite sign is +0, or −0 toward −∞ (R46, R49). -/
def FV.add (rm : Nat) : FV → FV → FV
  | .nan, _ => .nan
  | _, .nan => .nan
  | .inf a, .inf b => if a = b then .inf a else .nan
  | .inf a, _ => .inf a
  | _, .inf b => .inf b
  | .fin na ma ea, .fin nb mb eb =>
    let e := min ea eb
    let t := scaled na ma ea e + scaled nb mb eb e
    if t = 0 then .fin (if na = nb then na else rm == 3) 0 e else .fin (t < 0) t.natAbs e

/-- The exact product (R49). -/
def FV.mul : FV → FV → FV
  | .nan, _ => .nan
  | _, .nan => .nan
  | .inf a, .inf b => .inf (a != b)
  | .inf a, .fin b m _ => if m = 0 then .nan else .inf (a != b)
  | .fin a m _, .inf b => if m = 0 then .nan else .inf (a != b)
  | .fin a m e, .fin b n g => .fin (a != b) (m * n) (e + g)

/-- The exact sum of a list, first term first, as one addition (R53, R56). -/
def FV.sum (rm : Nat) : List FV → FV
  | [] => .fin false 0 0
  | x :: xs => xs.foldl (FV.add rm) x

/-- An integer as an exact value. -/
def FV.ofInt (x : Int) : FV := .fin (x < 0) x.natAbs 0

/-- x / y rounded once (R87). -/
def FF.div (f : FF) (rm : Nat) : FV → FV → Nat
  | .nan, _ => f.nan
  | _, .nan => f.nan
  | .inf _, .inf _ => f.nan
  | .inf a, .fin b _ _ => f.enc rm (.inf (a != b))
  | .fin a _ _, .inf b => f.signed (a != b) 0
  | .fin a m e, .fin b n g =>
    if n = 0 then (if m = 0 then f.nan else f.enc rm (.inf (a != b)))
    else if m = 0 then f.signed (a != b) 0
    else
      let sh := 64 + bitLen n
      let t := m * 2 ^ sh
      f.encS rm (t % n != 0) (.fin (a != b) (t / n) (e - g - sh))

/-- The integer square root, bit by bit from bit i − 1 down. -/
def isqrtBits : Nat → Nat → Nat → Nat
  | 0, _, r => r
  | i + 1, x, r =>
    let r' := r + 2 ^ i
    isqrtBits i x (if r' * r' ≤ x then r' else r)

def isqrt (x : Nat) : Nat := isqrtBits (bitLen x / 2 + 1) x 0

/-- √x rounded once (R94). -/
def FF.sqrt (f : FF) (rm : Nat) : FV → Nat
  | .nan => f.nan
  | .inf neg => if neg then f.nan else f.enc rm (.inf false)
  | .fin neg m e =>
    if m = 0 then f.signed neg 0
    else if neg then f.nan
    else
      let (m, e) := if e % 2 = 0 then (m, e) else (2 * m, e - 1)
      let t := m * 2 ^ 64
      let r := isqrt t
      f.encS rm (r * r != t) (.fin false r (e / 2 - 32))

/-- The order of R49 item 4, −0 below +0, as an integer key of a magnitude code with its sign. -/
def FF.key (f : FF) (c : Nat) : Int :=
  let mag := c % 2 ^ (f.width - 1)
  if c / 2 ^ (f.width - 1) % 2 = 1 then -(mag : Int) - 1 else mag

/-- A code is a NaN. -/
def FF.isNaN (f : FF) (c : Nat) : Bool := f.dec c == .nan

/-- Minimum or maximum of two codes (R49 item 4); `prop` is X = 1. -/
def FF.minmax (f : FF) (isMax prop : Bool) (a b : Nat) : Nat :=
  if f.isNaN a then (if prop || f.isNaN b then f.nan else b)
  else if f.isNaN b then (if prop then f.nan else a)
  else if isMax then (if f.key a < f.key b then b else a)
  else (if f.key b < f.key a then b else a)

/-- How two values compare (R49 item 5): none when unordered. -/
def FV.cmp : FV → FV → Option Ordering
  | .nan, _ => none
  | _, .nan => none
  | .inf a, .inf b => some (compare (if a then (0 : Int) else 1) (if b then 0 else 1))
  | .inf a, _ => some (if a then .lt else .gt)
  | _, .inf b => some (if b then .gt else .lt)
  | .fin na ma ea, .fin nb mb eb =>
    let e := min ea eb
    some (compare (scaled na ma ea e) (scaled nb mb eb e))

/-- A conversion to an 8- or 4-bit float (R50). -/
def FF.convert (f : FF) (sat : Bool) (x : FV) : Nat :=
  let big (neg : Bool) : Nat :=
    if f.width = 4 || sat then f.signed neg f.maxC
    else match f.infC with
      | some c => f.signed neg c
      | none => f.signed neg f.nan
  match x with
  | .nan => f.nan
  | .inf neg => big neg
  | .fin neg m e =>
    if m = 0 then f.signed neg 0
    else
      let c := f.magnitude 0 neg m e false
      if f.maxC < c then big neg else f.signed neg c

/-- The nearest integer under rm, for a finite value. -/
def FV.toInt (rm : Nat) : FV → Int
  | .fin neg m e =>
    let k : Int := roundAt rm neg m e 0 false
    if neg then -k else k
  | _ => 0

/-- A conversion to an integer format [lo, hi] (R51): NaN gives 0, others clamp. -/
def FV.clampInt (rm : Nat) (lo hi : Int) : FV → Int
  | .nan => 0
  | .inf neg => if neg then lo else hi
  | .fin neg m e => max lo (min hi (FV.toInt rm (.fin neg m e)))

/-- FRND (R96): rm 3 floor, 2 ceil, 1 trunc, 0 nearest even; a zero keeps the sign of x. -/
def roundIntegral (rm : Nat) : FV → FV
  | .fin neg m e => .fin neg (roundAt rm neg m e 0 false) 0
  | x => x

/-- FCLASS (R96). -/
def fclass (c : Nat) : Nat :=
  let neg := c / 2 ^ 31 % 2 == 1
  let x := fld c 23 8
  let t := fld c 0 23
  if x = 255 then
    if t = 0 then (if neg then 1 else 128) else if fld c 22 1 = 0 then 256 else 512
  else if x = 0 then
    if t = 0 then (if neg then 8 else 16) else (if neg then 4 else 32)
  else (if neg then 2 else 64)

/-! The function units (R94). A result in fixed point with 80 fraction bits stands for the exact one; its error is far below
the bounds of R94. -/

def fixBits : Nat := 80
/-- ln 2, 2π and log2 e in that fixed point. -/
def fixLn2 : Nat := 837963523372001241319907
def fixTau : Nat := 7595904947272677161575987
def fixLog2e : Nat := 1744111284760651037637903

/-- The product of two fixed-point numbers. -/
def fixMul (a b : Nat) : Nat := a * b / 2 ^ fixBits

/-- Σ y^n / n! from term n on, term t. -/
def fixExpFrom : Nat → Nat → Nat → Nat → Nat
  | 0, _, _, _ => 0
  | k + 1, n, y, t => t + fixExpFrom k (n + 1) y (fixMul t y / (n + 1))

/-- 2^f for f in [0, 1). -/
def fixExp2 (f : Nat) : Nat := fixExpFrom 28 0 (fixMul f fixLn2) (2 ^ fixBits)

/-- The binary digits of log2 m for m in [1, 2). -/
def fixLogFrom : Nat → Nat → Nat → Nat
  | 0, _, _ => 0
  | k + 1, m, d =>
    let s := fixMul m m
    if 2 ^ (fixBits + 1) ≤ s then d + fixLogFrom k (s / 2) (d / 2) else fixLogFrom k s (d / 2)

/-- The alternating series of cos (n = 0, term 1) and sin (n = 1, term a), by the square of the angle. -/
def fixTrigFrom : Nat → Nat → Nat → Nat → Int
  | 0, _, _, _ => 0
  | k + 1, n, sq, t => t - fixTrigFrom k (n + 2) sq (fixMul t sq / ((n + 1) * (n + 2)))

/-- sin of t turns, t in [0, 1/4], or its cosine. -/
def fixTrig (cos : Bool) (t : Nat) : Int :=
  let a := fixMul t fixTau
  if cos then fixTrigFrom 16 0 (fixMul a a) (2 ^ fixBits) else fixTrigFrom 16 1 (fixMul a a) a

/-- An exact multiple of 2^−80, cut off below: the fixed-point form of m × 2^e. -/
def fixOf (m : Nat) (e : Int) : Nat :=
  let k := e + fixBits
  if 0 ≤ k then m * 2 ^ k.toNat else m / 2 ^ (-k).toNat

/-- |x − y| ≤ b for exact finite values. -/
def FV.within (x y : FV) (m : Nat) (e : Int) : Bool :=
  match FV.add 0 x y.neg with
  | .fin _ k g => FV.cmp (.fin false k g) (.fin false m e) != some .gt
  | _ => false

/-- The device's own bits if they keep the bound m × 2^e around y, else y rounded to nearest (entry 10). -/
def boundedBits (own : Nat) (y : FV) (m : Nat) (e : Int) : Nat :=
  match fp32.dec own with
  | .fin _ _ _ => if FV.within (fp32.dec own) y m e then own else fp32.enc 0 y
  | _ => fp32.enc 0 y

/-- The exponent of one ulp of an exact positive value in FP32. -/
def ulpExp (m : Nat) (e : Int) : Int := max (e + (bitLen m : Int) - 24) (-149)

/-- FRSQ (R94): within 1 ulp of 1/√x. -/
def frsq (own : Nat) : FV → Nat
  | .nan => fp32.nan
  | .inf neg => if neg then fp32.nan else 0
  | .fin neg m e =>
    if m = 0 then fp32.signed neg 0x7F800000
    else if neg then fp32.nan
    else
      let (m, e) := if e % 2 = 0 then (m, e) else (2 * m, e - 1)
      let r := isqrt (2 ^ 200 / m)
      let y := -(e / 2) - 100
      boundedBits own (.fin false r y) 1 (ulpExp r y)

/-- FEXP2 (R94): within 2 ulp, exact for integral x. -/
def fexp2 (own : Nat) : FV → Nat
  | .nan => fp32.nan
  | .inf neg => if neg then 0 else 0x7F800000
  | .fin neg m e =>
    if m = 0 then 0x3F800000
    else
      let xi := FV.toInt 3 (.fin neg m e)
      if 128 ≤ xi then 0x7F800000
      else if xi < -149 then 0
      else if 0 ≤ e ∨ m % 2 ^ (-e).toNat = 0 then fp32.enc 0 (.fin false 1 xi)
      else
        let f := fixOf m e % 2 ^ fixBits
        let f := if neg then 2 ^ fixBits - 1 - f else f
        let r := fixExp2 f
        boundedBits own (.fin false r (xi - fixBits)) 2 (ulpExp r (xi - fixBits))

/-- FLOG2 (R94): within 2 ulp outside [0.5, 2], within 2^−22 inside, exact for powers of two. -/
def flog2 (own : Nat) : FV → Nat
  | .nan => fp32.nan
  | .inf neg => if neg then fp32.nan else 0x7F800000
  | .fin neg m e =>
    if m = 0 then 0xFF800000
    else if neg then fp32.nan
    else
      let l := bitLen m - 1
      let x := e + l
      if m = 2 ^ l then fp32.enc 0 (FV.ofInt x)
      else
        let d := fixLogFrom 78 (fixOf m (-(l : Int))) (2 ^ (fixBits - 1))
        let t : Int := x * 2 ^ fixBits + d
        let y : FV := .fin (t < 0) t.natAbs (-fixBits)
        if x = 0 ∨ x = -1 then boundedBits own y 1 (-22) else boundedBits own y 2 (ulpExp t.natAbs (-fixBits))

/-- FSIN and FCOS (R94), x in turns: reduction exact, exact at quarter turns, within 2^−22 elsewhere; a zero sine takes the sign of x. -/
def fsincos (cos : Bool) (own : Nat) : FV → Nat
  | .nan => fp32.nan
  | .inf _ => fp32.nan
  | .fin neg m e =>
    let whole : Bool := 0 ≤ e
    let k := (-e).toNat
    -- the fraction of |x| is f / 2^k
    let f := if whole then 0 else m % 2 ^ k
    let q := f * 4 / 2 ^ k
    if f * 4 % 2 ^ k = 0 then
      -- a multiple of a quarter turn
      let v : Int := if cos then (match q with | 0 => 1 | 2 => -1 | _ => 0) else (match q with | 1 => 1 | 3 => -1 | _ => 0)
      if v = 0 then (if cos then 0 else fp32.signed neg 0)
      else fp32.enc 0 (FV.ofInt (if !cos && neg then -v else v))
    else
      let t := fixOf f e
      let quarter := 2 ^ (fixBits - 2)
      let r := t % quarter
      let v : Int :=
        if cos then
          match q with
          | 0 => fixTrig true r
          | 1 => -fixTrig false r
          | 2 => -fixTrig true r
          | _ => fixTrig false r
        else
          match q with
          | 0 => fixTrig false r
          | 1 => fixTrig true r
          | 2 => -fixTrig false r
          | _ => -fixTrig true r
      let v := if !cos && neg then -v else v
      let r := boundedBits own (.fin (v < 0) v.natAbs (-fixBits)) 1 (-22)
      if !cos && r % 2 ^ 31 == 0 then fp32.signed neg 0 else r

/-- FTANH (R94): within 2^−21. -/
def ftanh (own : Nat) : FV → Nat
  | .nan => fp32.nan
  | .inf neg => fp32.signed neg 0x3F800000
  | .fin neg m e =>
    if m = 0 then fp32.signed neg 0
    else
      let a := fixOf m e
      if 2 ^ (fixBits + 5) ≤ a then boundedBits own (.fin neg 1 0) 1 (-21)
      else
        -- 2^(2 a log2 e), then (t − 1) / (t + 1)
        let x := 2 * fixMul a fixLog2e
        let t := fixExp2 (x % 2 ^ fixBits) * 2 ^ (x / 2 ^ fixBits)
        let r := (t - 2 ^ fixBits) * 2 ^ fixBits / (t + 2 ^ fixBits)
        boundedBits own (.fin neg r (-fixBits)) 1 (-21)

end Sys2Proof.Machine
end

