-- ==== Sys2Proof/Machine/Map.lean ====
section
/-! DEFINITION. Sparse maps from numbers, as lists of key and value in one canonical form: keys strictly rising. -/
namespace Sys2Proof.Machine

/-- A sparse map: keys with their values, keys strictly rising when built by the operations below. -/
abbrev SMap (α : Type) := List (Nat × α)

/-- The value at a key, if the map lists the key. -/
def SMap.find? {α : Type} : SMap α → Nat → Option α
  | [], _ => none
  | (k, v) :: r, i => if k = i then some v else SMap.find? r i

/-- The value at a key, d where the map lists none. -/
def SMap.getD {α : Type} (m : SMap α) (i : Nat) (d : α) : α := (SMap.find? m i).getD d

/-- List a value at a key, in place of any value there. -/
def SMap.insert {α : Type} : SMap α → Nat → α → SMap α
  | [], i, v => [(i, v)]
  | (k, w) :: r, i, v =>
    if k = i then (i, v) :: r else if i < k then (i, v) :: (k, w) :: r else (k, w) :: SMap.insert r i v

/-- List nothing at a key. -/
def SMap.erase {α : Type} : SMap α → Nat → SMap α
  | [], _ => []
  | (k, w) :: r, i => if k = i then SMap.erase r i else (k, w) :: SMap.erase r i

/-- Set the value at a key where d stands for "not listed": setting d lists nothing. -/
def SMap.put {α : Type} [DecidableEq α] (d : α) (m : SMap α) (i : Nat) (v : α) : SMap α :=
  if v = d then SMap.erase m i else SMap.insert m i v

/-- Change the value at a key, if there is one. -/
def SMap.modify {α : Type} : SMap α → Nat → (α → α) → SMap α
  | [], _, _ => []
  | (k, w) :: r, i, f => if k = i then (k, f w) :: r else (k, w) :: SMap.modify r i f

/-- The canonical form: keys strictly rising. -/
def SMap.sorted {α : Type} : SMap α → Bool
  | [] => true
  | [_] => true
  | (k, _) :: (k', w) :: r => k < k' && SMap.sorted ((k', w) :: r)

/-- Add a number to a set held as a strictly rising list. -/
def setInsert : List Nat → Nat → List Nat
  | [], i => [i]
  | k :: r, i => if k = i then k :: r else if i < k then i :: k :: r else k :: setInsert r i

/-- Remove a number from a set. -/
def setErase (l : List Nat) (i : Nat) : List Nat := l.filter fun k => k != i

/-- The numbers 0 to n − 1 that are keys of no entry, lowest first: the first of them, if any. -/
def lowestFree (n : Nat) (used : Nat → Bool) : Option Nat := (List.range n).find? fun i => !used i

end Sys2Proof.Machine
end

