-- ==== Sys2Proof/Machine/State.lean ====
section
/-! DEFINITION. The state of the KX8 as plain data: everything the spec gives the machine, from the lanes of a register to the
markers of the flash, and the machine right after reset. Sparse parts are maps whose unlisted entries are the default the
docstring names. -/
namespace Sys2Proof.Machine

/-- The states of a split-table entry in use (R27, R33); a FREE entry is not listed. -/
inductive SplitSt where
  | ready | blocked | arrived | parent | frozen
deriving DecidableEq, Repr

/-- The fault causes of R277, in the order of their numbers 1 to 17. -/
inductive Cause where
  | illegal | priv | align | xlat | prot | pad | stale | quota | hown | member | jtab | braid | trap | bkpt | ecc | future | fabric
deriving DecidableEq, Repr

/-- A physical vector register: 32 lanes and the lanes that hold poison (R19, R243). -/
structure VReg where
  lanes : Vector Word 32
  bad : Mask
deriving DecidableEq, Repr

/-- Why a split is BLOCKED (R33), its marker's park apart. Events wake the waits that a row of the table names; the rest are
looked at whenever a step has ended. `retry` ones execute their instruction again. -/
inductive Wait where
  | none
  /-- EXIT of the last lanes, as at a marker (R69, R118); retry -/
  | exitMarker (upto : Nat)
  /-- WAITM: address, expected word, limit and start, in ticks (R124) -/
  | monitor (addr : Nat) (x : Word) (limit : Option Nat) (since : Nat)
  | sleep (wake : Nat)
  /-- YIELD: groups (team, group) that must issue after issue number `since`, and the limit (R125) -/
  | yield (others : List (Nat × Nat)) (since limit : Nat)
  /-- SYSCALL: address of its record (R131) -/
  | syscall (addr : Nat)
  /-- a member-masked rendezvous: instruction address, mask, the lanes its guard enables, first arrival (R103, R104) -/
  | member (pc : Dword) (mm guard : Mask) (since : Nat) (jto : Nat)
  /-- a rendezvous that MEMBER ends: its address and FLT (R104) -/
  | memberLost (pc : Dword) (lanes : Mask)
  /-- a phase of a barrier that the group has arrived in (R121) -/
  | barrier (clu : Bool) (n phase : Nat)
  /-- BAR and BARW on an arrival that is not recorded yet (R121, R122) -/
  | arrival (tok : Nat)
  /-- FENCE: waits for loads, for stores, at a scope, issued before number `upto` (R123) -/
  | fence (loads stores : Bool) (scope upto : Nat)
  /-- SYSCALL: every access of its group numbered below `upto` is performed at sys scope (R131, R249); retry -/
  | settle (upto : Nat)
  /-- WAITTL on a threshold (R191); retry -/
  | future (ctx num : Nat)
  /-- n registers for new names (R22); retry -/
  | regs (n : Nat)
  | talloc (ord : Nat)
  /-- the latch that group `of` keeps for group `giver` must empty, or fill (R164); retry -/
  | latchFull (ofGroup giver : Nat)
  | latchEmpty (ofGroup giver : Nat)
  /-- TAWT on a slot's phase (R182); retry -/
  | tawt (slot phase : Nat)
  /-- in a braid's knot (R174) -/
  | knot
  | hclaim (h : Nat)
  /-- RSTEP.begin held for a view commit or for the group's closing step (R199, R200); retry -/
  | rope (rec : Nat)
  /-- the context holds 64 operations that have not started, or numbering must wait (R154); retry -/
  | ctxFull (ctx : Nat)
  /-- on a READY split: a translation miss at fetch or issue, parked under a token (R57, R237); retry -/
  | walk (token : Nat)
  /-- on a READY split: the driver declined its miss, and the instruction that misses again takes the fault (R237) -/
  | declined
deriving DecidableEq, Repr

/-- An issued lane instruction that has lanes left, stopped (R105) or in its pipe (R14): its address, the instruction, its length, marker and
number of issue, the first lane not performed, the active set and the s operand it fixed, that operand's poison (R79), the running value, the
first-pass buffer, whether the stop fell in the second pass, the mappings it fixed that the map has since replaced, the fresh registers it
writes in place of its own sources (R21 item 6), the member mask of its rendezvous (R103), the s registers it writes at its end and those it
reads (R82), the v names it writes in place (R18) and those it frees at its end (R21 item 5), the number of its outstanding kind-L
instruction, and the place in program order of the accesses still to be sent where a handler came between (R251). -/
structure Progress where
  pc : Dword
  ins : Instr
  len : Nat
  m : Bool
  issue : Nat
  lane : Nat
  act : Mask
  acc : Word
  buf : List Word
  pass2 : Bool
  sval : Dword
  sbad : Bool
  srcs : SMap VReg
  fresh : SMap VReg
  mm : Mask
  sdests : List Nat
  sreads : List Nat
  dsts : List Nat
  last : List Nat
  op : Option Nat
  ord : Option Nat
deriving DecidableEq, Repr

/-- A split-table entry in use (R27). `back` is the state a FROZEN split returns to (R33), `timer` the expiry of a JOINT
timer of this parent in ticks, `joint` says that a JOINT of its children has arrived (R117); `mark` its marker's park on the kind-L
instructions numbered below it, which an arrived split hands to its parent at the merge (R68, R116). `prog` is the oldest of its lane
instructions in the pipes, `later` the others in issue order (R17); `all` the lanes whose accesses come before its own in program order:
those it holds, and those that have left it or a child merged into it (R247). -/
structure Split where
  mask : Mask
  act : Mask
  pc : Dword
  jpc : BitVec 55
  fmt : BitVec 16
  parent : Nat
  st : SplitSt
  tof : Bool
  back : SplitSt
  wait : Wait
  mark : Option Nat
  timer : Option Nat
  joint : Bool
  prog : Option Progress
  later : List Progress
  all : Mask
deriving DecidableEq, Repr

/-- The special registers of the last fault delivered to a group (R25, R282). -/
structure FaultRegs where
  flt : Mask
  pix : Word
  skid : Word
  fpc : Dword
  fcause : Word
  fopn : Dword
  fopc : Word
  faddr : Dword
  fit : List Word
deriving DecidableEq, Repr

/-- A fault on its way to delivery: held for a marker (R69, R136), pending behind a halt (R279), or delivered now. `op` numbers
its kind-L instruction, `issue` the instructions its group had issued with it; the last three are FUTURE's (R282). -/
structure FaultRec where
  op : Nat
  split : Nat
  pc : Dword
  cause : Cause
  lanes : Mask
  detail : Nat
  addr : Dword
  pix : Nat
  issue : Nat
  held : Bool
  opn : Dword
  opc : Word
  fit : List Word
deriving DecidableEq, Repr

/-- One lane's access that has left the pipe and is not yet performed (R135, R139), or one 8-byte half of a 16-byte access (R244):
`part` 0 or 1. `ord` is its place in program order (R247, R251); `key` is the memory key once translated; `pad` the team whose pad
it reaches; `token` the fault token it is parked on, `replay` says that the miss has been serviced (R284); `sent` says that a fabric packet
carries it (R150). -/
structure LaneAcc where
  lane : Nat
  part : Nat
  ord : Nat
  size : Nat
  ea : Dword
  key : Option Nat
  pad : Option Nat
  data : List Byte
  cmp : Word
  token : Option Nat
  replay : Bool
  declined : Bool
  sent : Bool
deriving DecidableEq, Repr

/-- What an outstanding kind-L instruction does when its parts arrive (R66). -/
inductive LKind where
  /-- function unit or divider (R81) -/
  | unit
  | load (size : Nat) (signed acquire : Bool)
  /-- a plain store, or an STL with its scope -/
  | store (release : Option Nat)
  /-- ATOMG (result) or REDG -/
  | atomic (code : Nat) (result : Bool)
  | padLoad (size : Nat)
  | padStore
  | padAtomic (code : Nat)
  /-- SDIVN: its destination and quotient (R109) -/
  | sdiv (d : Nat) (q : Word)
  /-- TTOV: core, slot, row, its place in the core's issue order, lanes (R166) -/
  | ttov (core slot row ord : Nat) (act : Mask)
  /-- TSTAT: core, slot, first s register, its place in the core's issue order (R165) -/
  | tstat (core slot d ord : Nat)
  /-- RSTEP.begin or RVIEW (R199, R201) -/
  | view (opens : Bool) (rec d : Nat)
  /-- RSTEP.end (R199): the record and its place in the core's issue order -/
  | stepEnd (rec ord : Nat)
  /-- KVALLOC (R196) -/
  | kvalloc (rec count d : Nat)
deriving DecidableEq, Repr

/-- An outstanding kind-L instruction: its number, address, split and the lanes of the split's `all` (for program order, R247),
the count of instructions issued with it, whether a handler issued it, its s and v destinations, the new mappings of the latter, the lane results still to be written, the accesses still to be performed, the
faults met so far (R66 to R69, R136), the bytes, by lane and key, that its lanes have stored while a lower one is parked, the lanes still to
be sent with their addresses (R138), and that an event record of it could not be written (R367). -/
structure LOp where
  id : Nat
  pc : Dword
  split : Nat
  mask : Mask
  issue : Nat
  handler : Bool
  kind : LKind
  sdests : List Nat
  dests : List Nat
  nv : List VReg
  wrote : Mask
  res : List (Nat × List Word)
  accs : List LaneAcc
  faults : List FaultRec
  shadow : List (Nat × Nat)
  coming : List (Nat × Dword)
  barred : Bool
deriving DecidableEq, Repr

/-- A store in the core's write buffer (R140): the instruction, its lane and half, split lanes it came from and whether a handler issued it, its place in program order, its bank
ea[7:6], what a fault of it reports, its bytes by memory key; `red` makes it a REDG with that operation, `release` makes it an STL with that scope, whose performing completes its instruction (R139, R145). The buffer is in program order. -/
structure Buffered where
  id : Nat
  lane : Nat
  part : Nat
  ord : Nat
  mask : Mask
  handler : Bool
  bank : Nat
  pc : Dword
  ea : Dword
  issue : Nat
  bytes : List (Nat × Byte)
  red : Option Nat
  release : Option Nat
deriving DecidableEq, Repr

/-- What RSTEP has opened for a group (R199): the record, the member index, the place of the begin in the core's issue order, whether
the end has been issued. -/
structure RopeStep where
  record : Nat
  member : Nat
  ord : Nat
  closing : Bool
deriving DecidableEq, Repr

/-- What a handler's entry sets aside in its group (R220, R281): the interrupted map, predicates and splits, the faults that the
interrupted program holds, the number of the handler's first kind-L instruction, the entry of the handled split, and the latch of RPCH
(R282). -/
structure Saved where
  v : SMap VReg
  p : SMap Mask
  splits : SMap Split
  held : List FaultRec
  firstOp : Nat
  handled : Nat
  rpch : Word
deriving DecidableEq, Repr

/-- A barrier arrival that waits for the group's earlier accesses (R122, R249): scope, barrier, count, the kind-L instructions numbered below
`upto`, and the number that the splits which wait on it name. -/
structure Arrival where
  clu : Bool
  n : Nat
  count : Nat
  upto : Nat
  tok : Nat
deriving DecidableEq, Repr

/-- A group (R12, R19, R25, R34); `lastCycle` is the cycle of its core in which it issued last (R274), `haltSkid` is the SKID of its latest halt, `sibling` says that its team halts or is halted for no fault of
its own (R278, R282). Unlisted: v unmapped, s and p and q zero, t null
0xFFFF, split entries FREE. -/
structure Group where
  v : SMap VReg
  s : SMap Word
  sbad : List Nat
  p : SMap Mask
  q : SMap Dword
  t : SMap (BitVec 16)
  splits : SMap Split
  alive : Mask
  padFault : Mask
  retired : Bool
  brd : Word
  scv : Word
  jto : Word
  tvsel : Word
  hgsel : Word
  fr : FaultRegs
  clkh : Word
  floor : Nat
  slot : Nat
  mctx : Nat
  cctx : Nat
  gctx : Nat
  lastIssue : Nat
  lastCycle : Nat
  issued : Nat
  skidLeft : Nat
  haltSkid : Nat
  sibling : Bool
  nextOp : Nat
  ops : List LOp
  wbuf : List Buffered
  held : List FaultRec
  pending : List FaultRec
  haltCause : Nat
  handled : Nat
  latches : SMap (BitVec 16)
  phases : SMap Nat
  arrive : List Arrival
  step : Option RopeStep
  saved : Option Saved
deriving DecidableEq, Repr

/-- A barrier (R120): phase, arrivals and target of the current phase (0 for all); who has arrived (groups of the team, or team and
group); for a cluster barrier the teams that have arrived and the count each team's latest arrival named. -/
structure Barrier where
  phase : Nat
  count : Nat
  target : Nat
  groups : List (Nat × Nat)
  teams : List Nat
  named : SMap Nat
deriving DecidableEq, Repr

/-- A hearth register (R24); `claim` is the cycle and the split of the HCLAIM that took it when it was free. -/
structure Hearth where
  val : Word
  owner : Option Nat
  claim : Nat × Nat
deriving DecidableEq, Repr

/-- The states of a team (R35). `halting g` is HALTED while siblings still stop within their skid (R278). -/
inductive TeamSt where
  | placed | running | halting (g : Nat) | halted | out (halted : Bool) | retired
deriving DecidableEq, Repr

/-- A cluster of a launch (R12, R268): where it stands, its barriers, the message that starts its teams and the package time it names
(R313). -/
structure Cluster where
  sector : Nat
  x0 : Nat
  y0 : Nat
  teams : List Nat
  bars : SMap Barrier
  msg : Nat
  startAt : Nat
deriving DecidableEq, Repr

/-- A tile slot (R159, R182, R225). `busy` is a freed slot whose operations or zeroing have not finished (R163). Unlisted bytes
are 0. -/
structure TileSlot where
  alloc : Bool
  busy : Bool
  team : Nat
  kind : Nat
  gen : Nat
  p : Nat
  count : Nat
  target : Nat
  failed : Bool
  bytes : SMap Byte
  bad : List Nat
deriving DecidableEq, Repr

/-- A team (R12, R34, R35): its launch, place and groups, its pad, hearth registers, barriers and tile quota; the group that took its
fault (R281); its place in the order of admissions (R22); where its record lies in the save pool and its saved tiles while it is OUT (R286); the token its completion record waits on
(R267); whether the transaction records restored with it are still to be replayed (R287). -/
structure Team where
  st : TeamSt
  launch : Nat
  space : Nat
  core : Nat
  cix : Nat
  tx : Nat
  ty : Nat
  groups : SMap Group
  pad : SMap Byte
  padBad : List Nat
  padBase : Nat
  padSize : Nat
  hearth : SMap Hearth
  bars : SMap Barrier
  quota : Nat
  slots : List Nat
  handling : Option Nat
  cause : Option Nat
  debug : Bool
  faulting : Option Nat
  seenCluster : Bool
  admitted : Nat
  saveAt : Nat
  saveSize : Nat
  tiles : SMap TileSlot
  miss : Option Nat
  declined : Bool
  replay : Bool
deriving DecidableEq, Repr

/-- A weight-buffer entry (R226). -/
structure Weight where
  width : Nat
  compressed : Bool
  scale : Nat
  space : Nat
  bytes : SMap Byte
  bad : List Nat
deriving DecidableEq, Repr

/-- A TARV whose arrival waits for the operations that its group issued before it on the slot (R182). -/
structure TileArrival where
  slot : Nat
  target : Nat
  team : Nat
  grp : Nat
  ord : Nat
deriving DecidableEq, Repr

/-- Where KVAPP takes its rows (R197). -/
inductive KvSource where
  | tiles (keys values : Nat)
  | memory (addr : Dword)
deriving DecidableEq, Repr

/-- An engine command with the values it read at issue (R155). Tile operands are slots of the operation's core. -/
inductive ECmd where
  | tzero (d : Nat)
  /-- MMA and MMAS (R168, R172): accumulator, A, B slot or weight entry (with its compression and scale code), metadata slot for MMAS,
  FMT, rotation, scale registers of A and B, its braided set (R175; 0: none) -/
  | mma (d a b : Nat) (wb : Option (Bool × Nat)) (meta_ : Option Nat) (fmt : BitVec 16) (rot : Nat) (sa sb : List VReg) (braid : Nat)
  | tcomp (d a b : Nat) (fmt : BitVec 16)
  | tsoft (d a b c : Nat) (first : Bool) (fmt : BitVec 16)
  | tscale (d : Nat) (a : Option Nat) (b : Nat)
  | tnorm (d a b : Nat)
  | trowred (d a k : Nat)
  | tew (d a b k form : Nat) (cvt : Bool) (fmt : BitVec 16)
  | vtot (d row : Nat) (lo hi : VReg) (act : Mask)
  | sigq (d a b : Nat) (fmt : BitVec 16) (sa sb : List VReg)
  | cpy (src dst : Dword) (len : Nat) (levels : List (Nat × Int × Int)) (fabric : Bool)
  | tld (t rows : Nat) (addr : Dword) (stride : Int)
  | tst (t rows : Nat) (addr : Dword) (stride : Int)
  | wbld (entry : Nat) (addr : Dword) (compressed : Bool) (width scale : Nat)
  | gath (k v m : Nat) (rec : Dword) (start count : Nat) (list : Option Dword) (vblk : Nat) (fmt : BitVec 16)
  | sigf (rec : Dword) (first count : Nat) (list : Dword) (cap : Nat) (query : Dword) (radius : Nat)
  | mcst (src dst : Dword) (len : Nat)
  | coll (op : Nat) (src dst : Dword) (count grp : Nat)
  | enc (desc : Dword) (session : Nat)
  | pagein (rec : Dword) (first count : Nat)
  | kvrel (rec : Dword) (first count : Nat)
  | kvapp (rec : Dword) (count : Nat) (src : KvSource)
  | kvflush (rec : Dword)
  | rpub (rec : Dword) (member acc rst : Nat)
  /-- a COPY packet (R262) -/
  | copy (src dst : Dword) (len : Nat)
deriving DecidableEq, Repr

/-- A group waiting in a braid's knot (R174): its split, BRD, B source and FMT, and what it does when the knot completes: its marker
and its operation. -/
structure KnotMember where
  team : Nat
  grp : Nat
  split : Nat
  brd : Word
  wb : Bool
  b : Nat
  fmt : BitVec 16
  m : Bool
  cmd : ECmd
deriving DecidableEq, Repr

/-- A core (R1, R221 to R226, R281): partition word, tile slots, weight buffer, the team whose handler runs and the teams that
wait for it, the matrix engine's last served group slot, tile arrivals and knots, the groups that have issued in the present cycle, how many group
pipes they hold, the number of that cycle, the number of the core's latest issue (R274), and the groups that could have issued with how often
others went first (R38). An unlisted weight entry is not loaded. -/
structure Core where
  partition : Word
  tiles : SMap TileSlot
  weights : SMap Weight
  handler : Option Nat
  haltQ : List Nat
  served : Option Nat
  arrivals : List TileArrival
  knot : List KnotMember
  turn : List (Nat × Nat)
  pipes : Nat
  cycle : Nat
  lastIssue : Nat
  passed : List ((Nat × Nat) × Nat)
deriving DecidableEq, Repr

/-- A tail slot in use (R229, R297): its rows and its signature side area; `bad` lists the words that hold poison: 0 to 4095 of the rows,
4096 + t the signature of token t. -/
structure TailSlot where
  bytes : SMap Byte
  sigs : SMap Byte
  bad : List Nat
deriving DecidableEq, Repr

/-- What a gather has read so far (R300): its record, the tail, its slot and the tokens there, the block entries (state, tier, block) by
logical block. -/
structure Gather where
  record : List Byte
  tail : Option TailSlot
  slot : Option Nat
  first : Nat
  held : Nat
  entries : SMap (Nat × Nat × Nat)
deriving DecidableEq, Repr

/-- An operation of an engine context that is not complete (R154, R156, R161, R203). `upto` bounds the group's kind-L instructions whose stores it sees (R155); `prog` counts
finished k-steps, or copied or sent steps; `sent` the packets sent and `back` those answered, for COLL its seq and the chunks `got`; `since`
is the time of its start; `wait` holds fault tokens it waits on; `pins` the blocks it pins (R300); `failure` a failure already met;
`pack` the weight-buffer entry that a saved operation has taken along, `packFrom` another team's WBLD that is still to load it, `kept` the row 0
that a stopped TEW has read (R180, R203), `gather` what a gather has read (R300), `barred` says that an event record of it could not be
written (R367). -/
structure EOp where
  num : Nat
  cmd : ECmd
  space : Nat
  team : Nat
  grp : Nat
  core : Nat
  ord : Nat
  upto : Nat
  running : Bool
  prog : Nat
  sent : Nat
  back : Nat
  got : List Nat
  since : Nat
  wait : List Nat
  declined : Bool
  pins : List Nat
  failure : Option (Cause × Nat)
  pack : Option Weight
  packFrom : Option (Nat × Nat)
  kept : Option (List Byte)
  gather : Option Gather
  barred : Bool
deriving DecidableEq, Repr

/-- A failed operation not yet reported (R156, R158): number, cause, address, iteration vector. -/
structure FailRec where
  num : Nat
  cause : Cause
  addr : Nat
  iters : List Nat
deriving DecidableEq, Repr

/-- What an engine context belongs to (R153, R260, R266). -/
inductive CtxOwner where
  | matrix (team g : Nat)
  | copy (team g : Nat)
  | gather (team g : Nat)
  | fabric
  | encoder (session : Nat)
  | queue (q : Nat)
  | launch
deriving DecidableEq, Repr

/-- An engine context (R153, R154, R156): operations issued, timeline counter, numbers complete beyond the counter, operations
not complete, unreported failures. -/
structure ECtx where
  owner : CtxOwner
  space : Nat
  issued : Nat
  counter : Nat
  done : List Nat
  pend : List EOp
  failed : List FailRec
deriving DecidableEq, Repr

/-- A context's block pool of one tier and the operator's policy (R296, R317). -/
structure Policy where
  width : Nat
  factor : Nat
  tokens : Nat
deriving DecidableEq, Repr

/-- A bound context (R258): roots, handler, service ring, virtual function; the fatal mark (R237); the snapshot arming and trace
trigger (R290); the policy (R317); free zeroed blocks of each tier, reference counts and pin counts by tier × 2^32 + block, and
blocks queued for release (R296, R303). -/
structure Ctx where
  roots : List Nat
  handler : Dword
  ring : Dword
  entries : Nat
  ringNext : Nat
  vf : Nat
  fatal : Bool
  armed : Bool
  trace : Dword
  policy : Policy
  pool0 : List Nat
  pool1 : List Nat
  refs : SMap Nat
  pins : SMap Nat
  release : List Nat
deriving DecidableEq, Repr

/-- A miss parked at a sector controller (R237, R284, R319): its record's fields and the work that waits on it. -/
structure Park where
  space : Nat
  va : Dword
  access : Nat
  prot : Bool
  sector : Nat
  refs : List WalkRef
deriving DecidableEq, Repr

/-- What a taken packet of a queue still does (R260 to R263). -/
inductive QAct where
  | launch (id : Nat)
  | copy
  | signal (addr value : Dword)
  | wait (engine : Bool) (addr value : Dword)
  | contract (bytes : List Byte)
deriving DecidableEq, Repr

/-- A taken packet that is not complete. -/
structure QItem where
  num : Nat
  fence : Bool
  started : Bool
  act : QAct
deriving DecidableEq, Repr

/-- A hardware queue (R259, R260, R368): its descriptor, indices, stop, status word, engine context, packets not complete, the
packets of a COND's arms, taken with it and not acted on, each with whether it is discarded (R263), how many of them a
QUEUE RESET has cut off from the ring, whose indices they no longer move (R317), the trace slot of MARK (R262), the token its own access waits on. -/
structure Queue where
  vf : Nat
  space : Nat
  ring : Dword
  log2 : Nat
  pull : Dword
  read : Dword
  prio : Nat
  realtime : Bool
  cons : Nat
  prod : Nat
  stopped : Bool
  status : Word
  ectx : Nat
  taken : Nat
  items : List QItem
  arm : List (Bool × List Byte)
  loose : Nat
  trace : Dword
  traceTime : Nat
  miss : Option Nat
  declined : Bool
  stopAfter : Option Nat
  bell : Bool
deriving DecidableEq, Repr

/-- A launch (R264 to R271), named by its engine context: its descriptor's fields, its packet, placement and completion. -/
structure Launch where
  desc : Nat
  entry : Dword
  partition : Word
  regs : Nat
  groups : Nat
  tiles : Nat
  width : Nat
  height : Nat
  pad : Nat
  coop : Bool
  prio : Nat
  realtime : Bool
  classes : Nat
  grid : Nat
  area : Dword
  fabric : Nat
  contract : Nat
  space : Nat
  queue : Nat
  num : Nat
  status : Dword
  rope : Option Nat
  view : Nat
  dies : List Nat
  placed : Nat
  reserved : Bool
  started : Bool
  retired : List Nat
  failed : Bool
  complete : Bool
  spent : Bool
  clusters : SMap Cluster
deriving DecidableEq, Repr

/-- A bound real-time contract (R272, R273); its miss count lies in memory. `began` is the start of the current period, `judged` says that
its deadline has passed, `used` is the core time it has had on each of its sectors, in ticks; `owed` are misses still to be added to the count,
`miss` the token on which that waits, `declined` that the driver has declined it. -/
structure Contract where
  space : Nat
  cid : Nat
  classes : Nat
  sectors : List Nat
  period : Nat
  budget : Nat
  deadline : Nat
  status : Dword
  began : Nat
  judged : Bool
  used : SMap Nat
  owed : Nat
  miss : Option Nat
  declined : Bool
deriving DecidableEq, Repr

/-- Where a sequence's tail lies (R297, R298). -/
inductive TailLoc where
  | empty
  | slot (die n : Nat)
  | page (block : Nat)
deriving DecidableEq, Repr

/-- An active sequence record in the package scheduler's table (R293, R297, R306, R320): `full` says that the tail holds 16 tokens
not flushed, `steps` are the groups with a step open, `commit` says that a view commit holds new begins, `target` is a width that the policy asks for (0: none), `miss` the token on
which a commit waits, `declined` that the driver has declined it. -/
structure Seq where
  members : List Nat
  tail : TailLoc
  full : Bool
  steps : List (Nat × Nat)
  commit : Bool
  retiring : Bool
  appended : Nat
  target : Nat
  miss : Option Nat
  declined : Bool
deriving DecidableEq, Repr

/-- The states of a port's link (R353). -/
inductive LinkSt where
  | down | training (attempt : Nat) (final : Bool) | hold (attempt : Nat) | up | fallback | failed
deriving DecidableEq, Repr

/-- A flit that a port has sent and keeps: its sequence number, its data, how often it has been replayed (R338). -/
structure Flit where
  seq : Nat
  data : List Byte
  replays : Nat
deriving DecidableEq, Repr

/-- A fabric port and its link (R333, R337, R338, R352, R353): the records sent and received since it last left UP, the configuration it is
to train to as final; the next flit sequence to come and the data gathered; the next to send, the next not acknowledged, the last 512
flits sent, and the flits that wait until fewer are not acknowledged; every flit as it went out, with its trailer; the error count (R340). -/
structure Port where
  st : LinkSt
  sent : List LinkRecord
  got : List LinkRecord
  mine : LinkRecord
  rxSeq : Nat
  discarding : Bool
  rxData : List Byte
  txSeq : Nat
  acked : Nat
  replay : List Flit
  backlog : List (List Byte)
  wire : List (List Byte × Dword)
  errors : Nat
deriving DecidableEq, Repr

/-- Who waits for an unacknowledged packet (R150, R151, R188): lanes of a kind-L instruction, or an engine operation. -/
inductive Origin where
  | lanes (team g op : Nat) (lanes : List Nat)
  /-- with the address its line's data go to, where in the line they begin, and how many bytes they are -/
  | engine (ctx num dest off len : Nat)
deriving DecidableEq, Repr

/-- How a packet ends for its source: an answer to it, a status without one, or for a multicast packet the members never counted (R347,
R349). -/
inductive FabEnd where
  | answer (p : Packet)
  | status (n : Nat)
  | group (lost : Nat)
deriving DecidableEq, Repr

/-- An unacknowledged packet (R344, R347, R349): the packet, its origin, the planes it has timed out on, when it times out next, the
earliest time of a resend asked for, the positive count and negative entries received so far; its end while that waits on a token. -/
structure Unacked where
  pkt : Packet
  origin : Origin
  ctx : Nat
  tried : List Nat
  deadline : Nat
  resendAt : Option Nat
  positive : Nat
  negatives : List (Nat × Nat)
  ended : Option FabEnd
  wait : Option Nat
  declined : Bool
deriving DecidableEq, Repr

/-- A run of sequence numbers towards a target (key: peer) or a group (key: 4096 + group) (R344). `waiting` holds packets beyond
the 1024 in flight. -/
structure Run where
  next : Nat
  flight : List Unacked
  waiting : List Unacked
deriving DecidableEq, Repr

/-- The reorder window kept for a source (key: peer, or 4096 × (group + 1) + peer) (R344, R345): what is performed, the answers kept, the
packets held for an earlier one or for a miss, the tokens of the latter and the misses declined, by seq. -/
structure Window where
  epoch : Nat
  low : Nat
  performed : List Nat
  kept : List Packet
  held : List Packet
  waits : SMap Nat
  declined : List Nat
deriving DecidableEq, Repr

/-- A fabric context (R336), named by its engine context. -/
structure FabCtx where
  domain : Nat
  events : Dword
  index : Dword
  timeout : Nat
deriving DecidableEq, Repr

/-- The fabric interface: ports, runs, windows, contexts, the COLLs issued on each group (R351), collective results that
wait for a miss, packets sent in order of sending (what an observer sees). -/
structure Fabric where
  ports : SMap Port
  runs : SMap Run
  windows : SMap Window
  ctxs : SMap FabCtx
  colls : SMap Nat
  late : List Packet
  out : List Packet
deriving DecidableEq, Repr

/-- One entry of the export table (R335). -/
structure Export where
  valid : Bool
  domain : Nat
  space : Nat
  ro : Bool
  revoked : Bool
  base : Nat
  size : Nat
deriving DecidableEq, Repr

/-- One entry of the multicast group table (R348). -/
structure McGroup where
  members : Nat
  domain : Nat
deriving DecidableEq, Repr

/-- An entry of the encoder session table (R361, R362). -/
structure Session where
  entry : List Byte
  id : Nat
  status : Nat
  valid : Bool
  space : Nat
  encoder : Nat
  load : Nat
deriving DecidableEq, Repr

/-- One command link between the package scheduler and a sector controller (R312): for each direction the sender's permits, the
receiver's input buffer and the sender's outbound queue. Messages are numbered. -/
structure CmdLink where
  permitsDown : Nat
  bufDown : List Nat
  queueDown : List Nat
  permitsUp : Nat
  bufUp : List Nat
  queueUp : List Nat
deriving DecidableEq, Repr

/-- An admin command taken from the ring and not complete (R315, R316): its place in the ring, whether it has started, whether the driver
declined a miss of its own, and the tier-0 block that a DEMOTE has moved with its new tier-1 block (R320). -/
structure AdminCmd where
  num : Nat
  bytes : List Byte
  fence : Bool
  began : Bool
  declined : Bool
  moved : Option (Nat × Nat)
deriving DecidableEq, Repr

/-- A split as a snapshot bank latches it (R290): entry, PC, ACT and state code. -/
structure SnapSplit where
  entry : Nat
  pc : Dword
  act : Mask
  code : Nat
deriving DecidableEq, Repr

/-- What a core's snapshot bank holds after a trigger (R290): core, CLK, and for each resident group its index, state code and the
(entry, PC, ACT, STATE) of its splits; its latest issues; the occupancy of the transaction table and of the write-buffer banks. A core
that is not listed has nothing to latch but CLK, which all cores share. -/
structure SnapCore where
  core : Nat
  clk : Nat
  groups : List (Nat × Nat × List SnapSplit)
  issues : List (Nat × Nat)
  occupancy : Nat
  banks : List Nat
deriving DecidableEq, Repr

/-- What the bank of a block that is no core holds after a trigger (R290): the kind of block (1 sector controller, 2 translation engine, 3
die cache, 4 engine, 5 encoder, 6 package scheduler), its number, what it had in hand. -/
structure SnapBlock where
  kind : Nat
  index : Nat
  held : List Nat
deriving DecidableEq, Repr

/-- How bring-up will go (R365): whether step 3 succeeds, else the failing step and index; the CXL ports that train, with their capacities. -/
structure BringUp where
  ok : Bool
  step : Nat
  which : Nat
  cxl : SMap Nat
  untrained : List Nat
deriving DecidableEq, Repr

/-- A store to host memory that a link has accepted and that has not reached it yet (R255): the group that made it, its bytes by key. -/
structure Posted where
  team : Nat
  grp : Nat
  bytes : List (Nat × Byte)
deriving DecidableEq, Repr

/-- The package's outer state (18, 21): power, boot, flash, fuses (the root-key hash and the version; no step changes the former), measurements, staging, rings, registers, links, sessions. -/
structure Pkg where
  powered : Bool
  stage : Nat
  verdict0 : Nat
  verdict1 : Nat
  copies : Nat
  fallback : Bool
  slot : Nat
  recGo : Bool
  bringUp : Word
  loading : Option BringUp
  flash : SMap Byte
  rootKey : Nat
  fuses : Nat
  image : List Byte
  m0 : List Byte
  m1 : List Byte
  svn : Nat
  badSlots : List Nat
  staging : SMap Byte
  links : SMap CmdLink
  adminBase : Dword
  adminLog2 : Nat
  adminPull : Dword
  adminRead : Dword
  adminCons : Nat
  adminBell : Bool
  cmds : List AdminCmd
  faultBase : Dword
  faultLog2 : Nat
  faultCons : Nat
  faultProd : Nat
  records : List (List Byte)
  savePools : SMap (Nat × Nat)
  shares : SMap Nat
  powerCap : Word
  thermal : Bool
  hotAt : Nat
  sensor : Nat
  msix : List Nat
  cxl : SMap Nat
  cxlFailed : List Nat
  hostDown : List Nat
  hostRefused : List Nat
  posted : List Posted
  hostLate : List (Nat × List Byte)
  bifurcated : Bool
  peer : Nat
  epoch : Nat
  fabStage : List Byte
  fabLast : Word
  exports : SMap Export
  mcast : SMap McGroup
  sessions : SMap Session
  regs : SMap Word
  snaps : List SnapCore
  snapRest : List SnapBlock
  snapTime : Nat
deriving DecidableEq, Repr

/-- What the event being performed is about. -/
inductive EvArg where
  | none
  /-- a lane of an outstanding kind-L instruction -/
  | lane (tm g op k : Nat)
  | split (tm g sp : Nat)
  | op (tm g op : Nat)
  | walk (w : WalkRef)
  /-- an operation of an engine context -/
  | engine (ctx num : Nat)
  | team (tm : Nat)
  | teamCore (tm core : Nat)
  | teams (a b : Nat)
  | core (c : Nat)
  | slot (core s : Nat)
  | block (space tier b : Nat)
  | queue (q : Nat)
  | bell (fn q : Nat)
  | qitem (q num : Nat)
  | launch (l : Nat)
  | place (l sector x y : Nat)
  | rects (l : Nat) (rs : List (Nat × Nat × Nat))
  | contract (space cid : Nat)
  | view (space rec : Nat)
  | page (space va die frame : Nat)
  | index (i : Nat)
  | entry (i : Nat) (bytes : List Byte)
  | reg (off : Nat) (val : Word)
  /-- package reset (R327, R365): whether bring-up succeeds, else the failing step and index; the slots that cannot be read; the
  capacities behind the CXL ports, and the ports that fail to train (R360); the strap of R357 -/
  | reset (ok : Bool) (step which : Nat) (unread : List Nat) (cxl : SMap Nat) (untrained : List Nat) (bifurcated : Bool)
  /-- an admin command by its place among those not complete; whether a flash read-back of it fails -/
  | cmd (i : Nat) (readFails : Bool)
  | link (sector : Nat) (up : Bool)
  | flit (port : Nat) (data : List Byte) (trailer : Dword)
  /-- a configuration record: the port, what this end trained to, what it received (R352) -/
  | record (port : Nat) (mine r : LinkRecord)
  | portPacket (port : Nat) (p : Packet)
  | run (key seq : Nat)
  | error (loc : ErrLoc) (double : Bool)
  | value (n : Nat)
deriving DecidableEq, Repr

/-- What happens next from outside an instruction stream: an event row with what it is about, or a store by the host (to host
memory, the staging window or any memory it may reach), by memory key. -/
inductive Input where
  | event (i : Instr) (a : EvArg)
  /-- an instruction issues before the next entry: how far its lanes walk in this step, whether it may overtake one that is in the pipe -/
  | issue (cut : Option Nat) (past : Bool)
  /-- the other end of a link has discarded a flit: this end replays what is not acknowledged (R338) -/
  | flitReplay (port : Nat)
  /-- the pages (by memory key / 65536) of host memory that the host links refuse from now on (R234) -/
  | hostRefuse (pages : List Nat)
  /-- by memory key; a late one reaches host memory within the next step (R241) -/
  | hostStore (key : Nat) (bytes : List Byte) (late : Bool)
  | stagingStore (off : Nat) (bytes : List Byte)
  /-- a register access of the host over host link 1, which presents less in recovery (R329) -/
  | secondLink (i : Instr) (a : EvArg)
deriving DecidableEq, Repr

/-- The issuing split and instruction: team, group, split entry, instruction address, its length in bytes, marker, the guard
that applies to it (R62), the instruction itself, and the lane (32 up: of the second pass) at which its walk is interrupted in this step (log entry 11). -/
structure Cur where
  team : Nat
  grp : Nat
  split : Nat
  pc : Dword
  len : Nat
  m : Bool
  guard : Option (BitVec 3 × Bool)
  ins : Instr
  cut : Option Nat
deriving DecidableEq, Repr

/-- The whole machine. `corrected` counts corrected errors by die, `latent` lists the memory words that hold one not yet corrected, `flips` the words of
pools, weight buffers, tail stores and s registers that do (R243); `l1` and
`icache` name, by line of 64 bytes, the cores that hold a copy (R227, R228): copies never differ from memory, so they hold no data. The last fields are the model's own (log entry 2): what happens next (`agenda`), the event's subject
(`ev`), the issuing instruction (`cur`), splits that could not issue since the last event (`stalls`), whether
the device goes on by itself before the next instruction (`ownNext`), time in ticks of 1/18 ns (`now`), free values drawn (`free`), the next numbers to give out, the number of instructions issued, and the queue last served at each level (R269). -/
structure State where
  pkg : Pkg
  mem : List Host.Cell
  poison : List Nat
  ctxs : SMap Ctx
  parked : SMap Park
  owners : SMap Nat
  homes : SMap Nat
  counts : SMap Nat
  queues : SMap Queue
  launches : SMap Launch
  contracts : List Contract
  teams : SMap Team
  cores : SMap Core
  ectxs : SMap ECtx
  seqs : SMap Seq
  tails : SMap TailSlot
  fab : Fabric
  corrected : SMap Nat
  latent : List Nat
  flips : List ErrLoc
  l1 : SMap (List Nat)
  icache : SMap (List Nat)
  recent : List (Nat × Nat × Nat)
  agenda : List Input
  ev : EvArg
  cur : Cur
  stalls : List (Nat × Nat × Nat)
  ownNext : Bool
  now : Nat
  free : Nat
  nextTeam : Nat
  nextCtx : Nat
  nextToken : Nat
  nextOrd : Nat
  issues : Nat
  served : SMap Nat
deriving DecidableEq, Repr

/-- Why a step ends the run. No instruction of the spec does; the one case is a machine without power. -/
inductive Fault where
  /-- Raised by step when the package has no power: nothing answers (R11). Safe: no claim about a powered machine meets it. -/
  | noPower
deriving DecidableEq, Repr

/-- Why a step has no next state. -/
inductive Refusal where
  /-- An arm of exec whose meaning is not written. Safe. -/
  | notModelled (mnemonic : String)
  /-- Raised by an event's meaning when the event cannot happen in this state: what it is about is not there, or an order rule
  holds it back. Safe: the hardware makes no such step. -/
  | notEnabled (event : String)
  /-- Raised by an instruction's meaning when no split is issuing it. Safe: no instruction executes without a split (R106). -/
  | noIssuer
deriving DecidableEq, Repr

/-- A register with every lane zero (R21). -/
def VReg.zero : VReg := ⟨Vector.replicate 32 0, 0⟩

/-- A port before training (R353): it has eight lanes and the highest speed to offer. -/
def Port.reset : Port :=
  { st := .down, sent := [], got := [], mine := ⟨3, 0xFF, 0, 0⟩, rxSeq := 0, discarding := false, rxData := [], txSeq := 0,
    acked := 0, replay := [], backlog := [], wire := [], errors := 0 }

/-- The package right after reset (R327, R328, R311, R229, R326): stage 0, package time 0, no share, no permit spent. -/
def Pkg.reset : Pkg :=
  { powered := true, stage := 0, verdict0 := 0, verdict1 := 0, copies := 0, fallback := false, slot := 0, recGo := false,
    bringUp := 0, loading := none, flash := [], rootKey := 0, fuses := 0, image := [], m0 := List.replicate 32 0, m1 := List.replicate 32 0, svn := 0, badSlots := [], staging := [], links := [],
    adminBase := 0, adminLog2 := 0, adminPull := 0, adminRead := 0, adminCons := 0, adminBell := false, cmds := [],
    faultBase := 0, faultLog2 := 0, faultCons := 0, faultProd := 0, records := [], savePools := [], shares := [],
    powerCap := 5200, thermal := false, hotAt := 0, sensor := 0, msix := [], cxl := [], cxlFailed := [], hostDown := [], hostRefused := [], posted := [], hostLate := [],
    bifurcated := false, peer := 0, epoch := 0, fabStage := [], fabLast := 0, exports := [], mcast := [], sessions := [],
    regs := [], snaps := [], snapRest := [], snapTime := 0 }

/-- The machine right after package reset (R327, R365 step 1): nothing bound, nothing resident, memory with nothing listed. -/
def State.reset : State :=
  { pkg := Pkg.reset, mem := [], poison := [], ctxs := [], parked := [], owners := [], homes := [], counts := [], queues := [],
    launches := [], contracts := [], teams := [], cores := [], ectxs := [], seqs := [], tails := [],
    fab := { ports := [], runs := [], windows := [], ctxs := [], colls := [], late := [], out := [] },
    corrected := [], latent := [], flips := [], l1 := [], icache := [], recent := [], agenda := [], ev := .none,
    cur := { team := 0, grp := 0, split := 0, pc := 0, len := 4, m := false, guard := none, ins := .join, cut := none },
    stalls := [], ownNext := false, now := 0, free := 0, nextTeam := 0, nextCtx := 1, nextToken := 1, nextOrd := 0, issues := 0, served := [] }

end Sys2Proof.Machine
end

