-- ==== Sys2Proof/Machine/Flags.lean ====
section
/-! DEFINITION. The fields of FMT with their reserved codes (R26), and every condition a compare computes (R73, R77, R97). -/
namespace Sys2Proof.Machine

/-- A split's format register (R26). -/
abbrev Fmt := BitVec 16

def Fmt.rm (f : Fmt) : Nat := fld f.toNat 0 3
def Fmt.hf (f : Fmt) : Nat := fld f.toNat 3 1
def Fmt.q8 (f : Fmt) : Nat := fld f.toNat 4 2
def Fmt.q4 (f : Fmt) : Nat := fld f.toNat 6 2
def Fmt.ma (f : Fmt) : Nat := fld f.toNat 8 2
def Fmt.mb (f : Fmt) : Nat := fld f.toNat 10 2
def Fmt.sc (f : Fmt) : Nat := fld f.toNat 12 2
def Fmt.ftz (f : Fmt) : Bool := f.getLsbD 14
def Fmt.sat (f : Fmt) : Bool := f.getLsbD 15

/-- The fields that hold no reserved code (R26). -/
def Fmt.rmOk (f : Fmt) : Bool := f.rm ≤ 4
def Fmt.q4Ok (f : Fmt) : Bool := f.q4 != 3
def Fmt.maOk (f : Fmt) : Bool := f.ma != 3
def Fmt.scOk (f : Fmt) : Bool := f.sc != 3

/-- No FMT field is used. -/
def Fmt.any (_ : Fmt) : Bool := true

/-- The 16-bit format of FMT.hf. -/
def Fmt.half (f : Fmt) : FF := if f.hf = 0 then fp16 else bf16

/-- The 8-bit float format of FMT.q8, if it names one. -/
def Fmt.float8 (f : Fmt) : Option FF := match f.q8 with | 0 => some e4m3 | 1 => some e5m2 | _ => none

/-- Set FMT.rm alone (R127). -/
def Fmt.setRm (f : Fmt) (rm : BitVec 3) : Fmt := f &&& 0xFFF8#16 ||| rm.setWidth 16

/-- The exact value of an 8-bit element under FMT.q8 (R40, R43, R45). -/
def Fmt.elem8 (f : Fmt) (c : Nat) : FV :=
  match f.q8 with
  | 0 => e4m3.dec c
  | 1 => e5m2.dec c
  | 2 => FV.ofInt ((BitVec.ofNat 8 c).toInt)
  | _ => FV.ofInt c

/-- The exact value of a 4-bit element under FMT.q4 (R44). -/
def Fmt.elem4 (f : Fmt) (c : Nat) : FV :=
  match f.q4 with
  | 0 => e2m1.dec c
  | 1 => FV.ofInt ((BitVec.ofNat 4 c).toInt)
  | _ => FV.ofInt c

/-- The integer an 8-bit or 4-bit integer element stands for. -/
def Fmt.int8 (f : Fmt) (c : Nat) : Int := if f.q8 = 2 then (BitVec.ofNat 8 c).toInt else c
def Fmt.int4 (f : Fmt) (c : Nat) : Int := if f.q4 = 1 then (BitVec.ofNat 4 c).toInt else c

/-- An FP32 code as its exact value. -/
def f32 (w : Word) : FV := fp32.dec w.toNat

/-- An FP32 result of a lane or group instruction: rounded under rm, then R48. -/
def Fmt.round32 (f : Fmt) (rm : Nat) (x : FV) : Word := BitVec.ofNat 32 (flush f.ftz (fp32.enc rm x))

/-- The conditions of ICMP and ICMPN (R73). -/
def icmpCond (signed : Bool) (cc : Nat) (x y : Word) : Bool :=
  let lt := if signed then x.slt y else x.ult y
  match cc with
  | 0 => x == y
  | 1 => x != y
  | 2 => lt
  | 3 => lt || x == y
  | 4 => !(lt || x == y)
  | _ => !lt

/-- The conditions of FCMP (R73, R49 item 5). -/
def fcmpCond (cc : Nat) (x y : Word) : Bool :=
  match FV.cmp (f32 x) (f32 y) with
  | none => cc == 1 || cc == 6
  | some o =>
    match cc with
    | 0 => o == .eq
    | 1 => o != .eq
    | 2 => o == .lt
    | 3 => o != .gt
    | 4 => o == .gt
    | 5 => o != .lt
    | _ => false

/-- The conditions of SCMP and of COND packets (R77). -/
def scmpCond (c : Nat) (x y : Word) : Bool :=
  match c with
  | 0 => x == y
  | 1 => x != y
  | 2 => x.slt y
  | 3 => x.sle y
  | 4 => y.slt x
  | 5 => y.sle x
  | 6 => x.ult y
  | _ => !x.ult y

/-- How LP places an outcome into a predicate bit (R97). -/
def combine (cmb : Nat) (old new : Bool) : Bool :=
  match cmb with
  | 0 => new
  | 1 => old && new
  | 2 => old || new
  | _ => old != new

end Sys2Proof.Machine
end

