-- ==== Sys2Proof/Machine/Mem.lean ====
section
/-! DEFINITION. Memory: bytes by key with their poison (R232, R234, R243), and address translation (R230 to R237). A key is a
physical HBM address, 2^56 + a second-tier address, or 2^60 + a host bus address. -/
namespace Sys2Proof.Machine

def hbmBytes : Nat := 2 ^ 41
def tierOneKey : Nat := 2 ^ 56
def hostKey : Nat := 2 ^ 60

/-- What an unlisted byte reads as: zero (R8, R242, R365; host memory by log entry 3). -/
def blank : Byte := 0

/-- The canonical form: addresses strictly rising, no entry equal to what an unlisted address reads as. -/
def Memory.wf (m : List Host.Cell) : Bool := SMap.sorted m && m.all fun c => c.2 != blank

/-- Read one byte. -/
def memByte (m : List Host.Cell) (a : Nat) : Byte := SMap.getD m a blank

/-- Write one byte. -/
def memPut (m : List Host.Cell) (a : Nat) (b : Byte) : List Host.Cell := SMap.put blank m a b

/-- Write consecutive bytes. -/
def memPuts : List Host.Cell → Nat → List Byte → List Host.Cell
  | m, _, [] => m
  | m, a, b :: bs => memPuts (memPut m a b) (a + 1) bs

/-- n bytes from an address up. -/
def memBytes (m : List Host.Cell) (a n : Nat) : List Byte := (List.range n).map fun i => memByte m (a + i)

/-- The 8-byte words that n bytes at a touch. -/
def wordsOf (a n : Nat) : List Nat := if n = 0 then [] else (List.range ((a + n - 1) / 8 - a / 8 + 1)).map (· + a / 8)

def State.byte (s : State) (a : Nat) : Byte := memByte s.mem a
def State.bytes (s : State) (a n : Nat) : List Byte := memBytes s.mem a n
def State.nat (s : State) (a n : Nat) : Nat := bytesNat (s.bytes a n)

/-- Some word that n bytes at a touch is poisoned. -/
def State.poisoned (s : State) (a n : Nat) : Bool := (wordsOf a n).any fun w => s.poison.contains w

/-- The L1 copies left when n bytes at a are written: none of their lines (R227). -/
def dropLines (m : SMap (List Nat)) (a n : Nat) : SMap (List Nat) := m.filter fun e => !(64 * e.1 < a + n && a < 64 * e.1 + 64)

/-- Store bytes; an 8-byte word written in full loses its poison (R138) and any bit error; the L1 copies of the lines go (R227). -/
def State.store (s : State) (a : Nat) (bs : List Byte) : State :=
  { s with
    mem := memPuts s.mem a bs
    l1 := dropLines s.l1 a bs.length
    poison := s.poison.filter fun w => !(a ≤ 8 * w && 8 * w + 8 ≤ a + bs.length)
    latent := s.latent.filter fun w => !(a ≤ 8 * w && 8 * w + 8 ≤ a + bs.length) }

/-- Store bytes at single keys (a lane's store that R138 has thinned out). -/
def State.storeAt (s : State) (bs : List (Nat × Byte)) : State :=
  { s with
    mem := bs.foldl (fun m b => memPut m b.1 b.2) s.mem
    l1 := s.l1.filter fun e => !(bs.any fun b => b.1 / 64 == e.1)
    poison := s.poison.filter fun w => !((List.range 8).all fun i => bs.any fun b => b.1 == 8 * w + i)
    latent := s.latent.filter fun w => !((List.range 8).all fun i => bs.any fun b => b.1 == 8 * w + i) }

/-- Mark a word poisoned. -/
def State.taint (s : State) (w : Nat) : State := { s with poison := setInsert s.poison w }

/-- Copy n bytes with their poison, word by word where both ends are aligned alike, else any touched word (R366). -/
def State.copyBytes (s : State) (src dst n : Nat) : State :=
  let bad := (wordsOf src n).filter fun w => s.poison.contains w
  let hit := bad.flatMap fun w =>
    let lo := max (8 * w) src
    let hi := min (8 * w + 8) (src + n)
    wordsOf (dst + (lo - src)) (hi - lo)
  hit.foldl State.taint (s.store dst (s.bytes src n))

/-- The kinds of access that translation tells apart (R233). -/
inductive Access where
  | read | write | fetch
deriving DecidableEq, Repr

/-- What a walk answers (R233, R234, R237): the key of the byte, a miss, a protection miss, a frame that does not exist (an
unserviceable protection miss), or an uncorrectable error in an entry. -/
inductive Tr where
  | hit (key : Nat)
  | miss
  | prot
  | hard
  | ecc
deriving DecidableEq, Repr

/-- An entry that R233 treats as a miss whatever step reads it. -/
def pteBad (e : Nat) : Bool := fld e 0 1 == 0 || fld e 56 8 != 0 || fld e 6 10 != 0 || 3 < fld e 52 4

/-- A non-leaf entry that breaks a rule of R232. -/
def tableBad (e : Nat) : Bool := fld e 52 4 != 0 || fld e 2 4 != 0

/-- The second tier's port for an address: capacities end to end in port order (R234). -/
def cxlPort : SMap Nat → Nat → Option Nat
  | [], _ => none
  | (p, c) :: r, a => if a < c then some p else cxlPort r (a - c)

/-- The key of a frame address of a tier, if the device has it (R234, R357, R360). -/
def State.frameKey (s : State) (tier a : Nat) : Option Nat :=
  if tier = 0 ∨ tier = 3 then (if a < hbmBytes then some a else none)
  else if tier = 1 then
    match cxlPort s.pkg.cxl a with
    | some p => if s.pkg.cxlFailed.contains p then none else some (tierOneKey + a)
    | none => none
  else some (hostKey + a)

/-- What a leaf allows (R233), and the byte it maps (R234). -/
def State.leaf (s : State) (e off : Nat) (acc : Access) (priv : Bool) : Tr :=
  if (acc = .write ∧ fld e 2 1 = 0) ∨ (acc = .fetch ∧ fld e 3 1 = 0) ∨ (fld e 4 1 = 1 ∧ priv = false) then .prot
  else match s.frameKey (fld e 52 4) (fld e 16 36 * 65536 + off) with
    | some k => .hit k
    | none => .hard

/-- The walk of R231 from a root entry. -/
def State.walkFrom (s : State) (root va : Nat) (acc : Access) (priv : Bool) : Tr :=
  if pteBad root || fld root 1 1 == 1 || tableBad root then .miss
  else
    let a1 := fld root 16 36 * 65536 + 8 * fld va 42 13
    let e1 := s.nat a1 8
    if hbmBytes ≤ a1 then .miss
    else if s.poisoned a1 8 then .ecc
    else if pteBad e1 || fld e1 1 1 == 1 || tableBad e1 then .miss
    else
      let a2 := fld e1 16 36 * 65536 + 8 * fld va 29 13
      let e2 := s.nat a2 8
      if hbmBytes ≤ a2 then .miss
      else if s.poisoned a2 8 then .ecc
      else if pteBad e2 then .miss
      else if fld e2 1 1 = 1 then
        if fld e2 16 13 = 0 then s.leaf e2 (fld va 0 29) acc priv else .miss
      else if tableBad e2 then .miss
      else
        let a3 := fld e2 16 36 * 65536 + 8 * fld va 16 13
        let e3 := s.nat a3 8
        if hbmBytes ≤ a3 then .miss
        else if s.poisoned a3 8 then .ecc
        else if pteBad e3 || fld e3 1 1 == 0 then .miss
        else s.leaf e3 (fld va 0 16) acc priv

/-- The key of a tier-2 byte on the host link of a virtual function (R234, R357): joint links reach one host; bifurcated ones two, the
second's memory from 2^61 up. None where no link to the host is up, or the link refuses the address. -/
def State.hostSide (s : State) (vf key : Nat) : Option Nat :=
  let k := if s.pkg.bifurcated then key + vf / 32 * hostKey else key
  let down := if s.pkg.bifurcated then s.pkg.hostDown.contains (vf / 32) else s.pkg.hostDown.contains 0 && s.pkg.hostDown.contains 1
  if down || s.pkg.hostRefused.contains (k / 65536) then none else some k

/-- The host links' posted writes reach host memory, in the order in which they were accepted (R255). -/
def State.flushPosted (s : State) : State :=
  if s.pkg.posted.isEmpty then s
  else { (s.pkg.posted.foldl (fun (s : State) p => s.storeAt p.bytes) s) with pkg := { s.pkg with posted := [] } }

/-- The host's own stores that were on their way arrive (R241, R255). -/
def State.hostArrives (s : State) : State :=
  if s.pkg.hostLate.isEmpty then s
  else { (s.pkg.hostLate.foldl (fun (s : State) p => s.store p.1 p.2) s) with pkg := { s.pkg with hostLate := [] } }

/-- A store of a group is performed: at its coherence point, or by the host link's acceptance of it (R241, R246, R255). -/
def State.perform (s : State) (t g : Nat) (bs : List (Nat × Byte)) : State :=
  if bs.any fun b => hostKey ≤ b.1 then { s with pkg := { s.pkg with posted := s.pkg.posted ++ [⟨t, g, bs⟩] } } else s.storeAt bs

/-- Translate a virtual address of an ordinary window in an address space (R230, R231). -/
def State.translate (s : State) (space va : Nat) (acc : Access) (priv : Bool) : Tr :=
  match s.ctxs.find? space with
  | some c => match s.walkFrom (c.roots.getD (fld va 55 2) 0) va acc priv with
    | .hit key =>
      if key < hostKey then .hit key
      else match s.hostSide c.vf key with
        | some k => .hit k
        | none => .hard
    | x => x
  | none => .miss

/-- The home die of a key (R238): the frame's die for HBM, else the assigned one. -/
def State.homeDie (s : State) (key : Nat) : Nat :=
  if key < hbmBytes then key / 2 ^ 38 else s.homes.getD (key / 65536) 0

/-- Count a corrected error of a die. -/
def State.correct (s : State) (die : Nat) : State :=
  { s with corrected := s.corrected.insert die (s.corrected.getD die 0 + 1) }

/-- n bytes of memory are read: a single-bit error in their words is corrected, written back and counted (R243). -/
def State.readMem (s : State) (a n : Nat) : State :=
  if s.latent.isEmpty then s
  else
    let ws := (wordsOf a n).filter s.latent.contains
    ws.foldl (fun (s : State) w => s.correct (s.homeDie (8 * w))) { s with latent := s.latent.filter fun w => !ws.contains w }

/-- The addresses of the page-table entries that a walk reads (R231). -/
def State.walkReads (s : State) (root va : Nat) : List Nat :=
  let entry (e bit len : Nat) : Nat := fld e 16 36 * 65536 + 8 * fld va bit len
  let below (e : Nat) (bit : Nat) (rest : Nat → List Nat) : List Nat :=
    if pteBad e || fld e 1 1 == 1 || tableBad e || hbmBytes ≤ entry e bit 13 then [] else entry e bit 13 :: rest (s.nat (entry e bit 13) 8)
  below root 42 fun e => below e 29 fun e => below e 16 fun _ => []

/-- A walk reads its entries: their single-bit errors are corrected (R243). -/
def State.readWalk (s : State) (space va : Nat) : State :=
  if s.latent.isEmpty then s
  else match s.ctxs.find? space with
    | some c => (s.walkReads (c.roots.getD (fld va 55 2) 0) va).foldl (fun (s : State) a => s.readMem a 8) s
    | none => s

/-- The die of a core: 192 cores (R1, R13). -/
def dieOf (core : Nat) : Nat := core / 192

/-- The die of a team's core. -/
def State.dieOfTeam (s : State) (t : Nat) : Nat := ((s.teams.find? t).map fun T => dieOf T.core).getD 0

/-- The die of an array that is not memory. -/
def State.dieAt (s : State) : ErrLoc → Nat
  | .mem key => s.homeDie key
  | .vreg t _ _ _ | .sreg t _ _ | .pad t _ | .split t _ _ => s.dieOfTeam t
  | .tile core _ _ | .weight core _ _ | .control core => dieOf core
  | .tail die _ _ | .clean die => die

/-- The aligned 8-byte word of an error: two lanes of a register, a pair of s registers (R243). -/
def ErrLoc.word : ErrLoc → ErrLoc
  | .vreg t g n k => .vreg t g n (k / 2 * 2)
  | .sreg t g n => .sreg t g (n / 2 * 2)
  | x => x

/-- Words outside memory are read: their single-bit errors are corrected, written back and counted (R243). -/
def State.readUnits (s : State) (p : ErrLoc → Bool) : State :=
  if s.flips.isEmpty then s
  else (s.flips.filter p).foldl (fun (s : State) x => s.correct (s.dieAt x)) { s with flips := s.flips.filter fun x => !p x }

/-- Bytes of a pad are read. -/
def State.readPad (s : State) (team off n : Nat) : State := s.readUnits fun x => match x with
  | .pad t w => t == team && (wordsOf off n).contains w
  | _ => false

/-- Bytes of a pad are written: a word written in part is read first, one written in full loses its error (R243). -/
def State.overPad (s : State) (team off n : Nat) : State :=
  if s.flips.isEmpty then s
  else State.readPad { s with flips := s.flips.filter fun x => match x with
    | .pad t w => !(t == team && off ≤ 8 * w && 8 * w + 8 ≤ off + n)
    | _ => true } team off n

/-- Tile slots and weight-buffer entries of a core are read, named as the scoreboard names them (R161): an entry as 256 + its number. -/
def State.readTiles (s : State) (core : Nat) (names : List Nat) : State := s.readUnits fun x => match x with
  | .tile c n _ => c == core && names.contains n
  | .weight c e _ => c == core && names.contains (256 + e)
  | _ => false

/-- The fabric windows of R134: unicast and multicast. -/
def windowOf (va : Nat) : Nat := if fld va 57 7 != 0 then 4 else fld va 55 2

/-- The lane addresses a fabric window (R134). -/
def LaneAcc.fab (a : LaneAcc) : Bool := a.pad.isNone && 2 ≤ windowOf a.ea.toNat

/-- What the events about an access name it by: its lane, or 32 + its lane for an upper half (R244). -/
def LaneAcc.tag (a : LaneAcc) : Nat := a.lane + 32 * a.part
def Buffered.tag (b : Buffered) : Nat := b.lane + 32 * b.part

end Sys2Proof.Machine
end

