-- ==== Sys2Proof/Machine/Splits.lean ====
section
/-! DEFINITION. The split table of one group (R27 to R33, R117): dividing, arriving, merging, ending, freezing. -/
namespace Sys2Proof.Machine

/-- The lowest-numbered FREE entry (R28); R29 says there is one. -/
def Group.freeEntry (g : Group) : Nat := (lowestFree 64 fun i => (g.splits.find? i).isSome).getD 63

/-- Change one split. -/
def Group.modSplit (g : Group) (i : Nat) (f : Split → Split) : Group := { g with splits := g.splits.modify i f }

/-- divide(e, outs) of R28. -/
def Group.divide (g : Group) (i : Nat) (e : Split) (outs : List (Dword × Mask)) : Group :=
  let child (o : Dword × Mask) : Split :=
    { mask := o.2, act := o.2, pc := o.1, jpc := e.jpc, fmt := e.fmt, parent := i, st := .ready, tof := false, back := .ready,
      wait := .none, mark := none, timer := none, joint := false, prog := none, later := [], all := o.2 }
  let g := outs.foldl (fun (g : Group) o => { g with splits := SMap.insert g.splits g.freeEntry (child o) }) g
  g.modSplit i fun e => { e with st := .parent, prog := none, later := [], joint := false }

/-- The children of entry i: entry and split. -/
def Group.children (g : Group) (i : Nat) : List (Nat × Split) := g.splits.filter fun c => c.1 != i && c.2.parent == i

/-- The lane instructions of a split that are in the pipes or stopped, oldest first (R17). -/
def Split.walks (e : Split) : List Progress := e.prog.toList ++ e.later

/-- Put a split's lane instructions in place. -/
def Split.setWalks (e : Split) (l : List Progress) : Split := { e with prog := l.head?, later := l.drop 1 }

/-- Change each of a split's lane instructions. -/
def Split.mapWalks (f : Progress → Progress) (e : Split) : Split := { e with prog := e.prog.map f, later := e.later.map f }

/-- Some lane instruction of a group, in the pipes or stopped. -/
def Group.anyWalk (g : Group) (p : Progress → Bool) : Bool := g.splits.any fun e => e.2.walks.any p

/-- The member-masked form of this rendezvous has begun and has lanes left (R103). -/
def Group.executing (g : Group) (pc : Dword) (mm : Mask) : Bool := g.anyWalk fun p => p.pc == pc && p.mm == mm

/-- The rendezvous a split waits at: its address and mask. -/
def Split.memberAt (e : Split) : Option (Dword × Mask) :=
  match e.wait with
  | .member pc mm _ _ _ => some (pc, mm)
  | _ => none

/-- A split arrives at a member-masked form, or at its join (pc and mask 0): the splits that wait for it at another address or mask will
raise MEMBER (R104). -/
def Group.arriveElsewhere (g : Group) (i : Nat) (mask : Mask) (pc : Dword) (mm : Mask) : Group :=
  let lost (e : Split) : Split := match e.memberAt with
    | some (pc', mm') => if (pc', mm') ≠ (pc, mm) ∧ mask &&& mm' ≠ 0 ∧ g.executing pc' mm' = false then { e with wait := .memberLost pc' (mask &&& mm') } else e
    | none => e
  { g with splits := List.map (fun (e : Nat × Split) => (e.1, if e.1 = i then e.2 else lost e.2)) g.splits }

/-- The group's lanes that a split's leaving removes. -/
def Group.dropLanes (g : Group) (m : Mask) : Group := { g with alive := g.alive &&& ~~~m }

/-- A split has ended or gone elsewhere without a merge: no entry follows its accesses (R247). -/
def Group.forget (g : Group) (m : Mask) : Group :=
  { g with splits := List.map (fun (c : Nat × Split) => (c.1, { c.2 with all := c.2.all &&& ~~~m })) g.splits }

/-- Entry i becomes FREE with no lane left. -/
def Group.free (g : Group) (i : Nat) (e : Split) : Group := { g with splits := g.splits.erase i }.forget e.all

/-- What becomes of an entry at R30 and R31 when it is looked at: freed, ended, arrived, merged, or nothing. `held` is the state
a merged split takes: READY, or FROZEN while the team is halted (R278); a child's marker parks the merged split (R68). -/
def Group.settle1 (g : Group) (held : Bool) (i : Nat) (e : Split) : Option Group :=
  if e.st = .parent then
    let cs := g.children i
    if cs.all fun c => c.2.st == .arrived || (c.2.st == .frozen && c.2.back == .arrived) then
      let u := cs.foldl (fun m c => m ||| c.2.mask) 0#32
      let mark := cs.foldl (fun m c => match m, c.2.mark with
        | some x, some y => some (max x y)
        | x, none => x
        | none, y => y) none
      let back : SplitSt := if mark.isSome then .blocked else .ready
      let g := { g with splits := cs.foldl (fun (t : SMap Split) (c : Nat × Split) => SMap.erase t c.1) g.splits }
      if u = 0 then some (g.free i e)
      else
        let jpc : BitVec 55 := if e.parent = i then 0 else ((g.splits.find? e.parent).map Split.jpc).getD 0
        some (g.modSplit i fun e =>
          { e with mask := u, act := u, pc := (0#7 ++ e.jpc ++ 0#2) + 4, jpc := jpc, st := if held then .frozen else back,
                   back := back, mark := mark, timer := none, joint := false })
    else none
  else if e.mask = 0 then some (g.free i e)
  else if e.act = 0 ∧ e.parent = i then some ((g.dropLanes e.mask).free i e)
  else if e.act = 0 ∧ (e.st = .ready ∨ e.st = .blocked) then
    some ((g.arriveElsewhere i e.mask 0 0).modSplit i fun e => { e with st := .arrived, wait := .none, prog := none, later := [] })
  else if e.act = 0 ∧ e.st = .frozen ∧ e.back ≠ .arrived then
    some ((g.arriveElsewhere i e.mask 0 0).modSplit i fun e => { e with back := .arrived, wait := .none, prog := none, later := [] })
  else none

/-- The first entry at which R30 or R31 applies. -/
def Group.settleOnce (g : Group) (held : Bool) : Option Group := g.splits.findSome? fun c => g.settle1 held c.1 c.2

/-- Apply R30 and R31 until nothing changes; every application frees or arrives an entry, or merges. -/
def Group.settleN : Nat → Group → Bool → Group
  | 0, g, _ => g
  | n + 1, g, held => match g.settleOnce held with
    | some g' => Group.settleN n g' held
    | none => g

def Group.settle (g : Group) (held : Bool) : Group := Group.settleN 256 g held

/-- JOIN and JOINT (R30, R116): the split of entry i arrives if its address is its parent's JPC. -/
def Group.arrives (g : Group) (i : Nat) (e : Split) (pc : Dword) : Bool :=
  e.parent != i && match g.splits.find? e.parent with
    | some p => p.jpc != 0 && (0#7 ++ p.jpc ++ 0#2) == pc
    | none => false

/-- The expiry of a timed join (R117): late children go to the parent's parent, then the arrived ones merge. -/
def Group.timeout (g : Group) (held : Bool) (i : Nat) (e : Split) : Group :=
  let late := (g.children i).filter fun c => !(c.2.st == .arrived)
  let up : BitVec 55 := ((g.splits.find? e.parent).map Split.jpc).getD 0
  let g := late.foldl (fun (g : Group) (c : Nat × Split) => (g.modSplit c.1 fun x =>
    if e.parent = i then { x with parent := c.1, jpc := 0 } else { x with parent := e.parent, jpc := up }).modSplit i fun x =>
      { x with all := x.all &&& ~~~c.2.all }) g
  (g.modSplit i fun e => { e with tof := true, timer := none }).settle held

/-- Remove lanes from a group (R118, R143): out of ALIVE and of every split's MASK and ACT, then R30 and R31. -/
def Group.leave (g : Group) (held : Bool) (m : Mask) : Group :=
  let drop (e : Split) : Split := if e.st = .parent then e else { e with mask := e.mask &&& ~~~m, act := e.act &&& ~~~m }
  let g := { g with alive := g.alive &&& ~~~m, splits := List.map (fun (c : Nat × Split) => (c.1, drop c.2)) g.splits }
  g.settle held

/-- Freeze the READY and BLOCKED splits (R33, R278). -/
def Group.freeze (g : Group) : Group :=
  { g with splits := g.splits.map fun c =>
      (c.1, if c.2.st = .ready ∨ c.2.st = .blocked then { c.2 with st := .frozen, back := c.2.st } else c.2) }

/-- Return each FROZEN split to the state it had (R33, R283). -/
def Group.thaw (g : Group) : Group :=
  { g with splits := g.splits.map fun c => (c.1, if c.2.st = .frozen then { c.2 with st := c.2.back } else c.2) }

/-- Some split can issue. -/
def Group.ready (g : Group) : Bool := g.splits.any fun c => c.2.st == .ready

end Sys2Proof.Machine
end

