-- ==== Sys2Proof/Machine/Ops.lean ====
section
/-! DEFINITION. The named operations every meaning is built from: the issuing split, registers, taking an exception and
returning from one, finishing, stalling and blocking an instruction. -/
namespace Sys2Proof.Machine

/-- The outcome of an instruction or event. -/
abbrev Res := Host.Outcome State Fault Refusal

def LKind.isLoad : LKind → Bool
  | .load _ _ _ | .padLoad _ => true
  | _ => false

/-! ### Looking up and changing teams, groups and splits -/

def State.modTeam (s : State) (t : Nat) (f : Team → Team) : State := { s with teams := s.teams.modify t f }

def Team.modGroup (T : Team) (g : Nat) (f : Group → Group) : Team := { T with groups := T.groups.modify g f }

def State.modGroup (s : State) (t g : Nat) (f : Group → Group) : State := s.modTeam t fun T => T.modGroup g f

def State.modSplit (s : State) (t g i : Nat) (f : Split → Split) : State := s.modGroup t g fun G => G.modSplit i f

/-- The team is on a core. -/
def Team.here (T : Team) : Bool := match T.st with
  | .placed | .out _ | .retired => false
  | _ => true

def State.group? (s : State) (t g : Nat) : Option Group := (s.teams.find? t).bind fun T => T.groups.find? g

def State.split? (s : State) (t g i : Nat) : Option Split := (s.group? t g).bind fun G => G.splits.find? i

/-- A core before any launch (R222). -/
def Core.empty : Core :=
  { partition := 0, tiles := [], weights := [], handler := none, haltQ := [], served := none, arrivals := [], knot := [], turn := [], pipes := 0,
    cycle := 0, lastIssue := 0, passed := [] }

/-- An issue of this group begins a core's next cycle: in one cycle four groups issue at most, each once, two of them group words (R274). -/
def Core.begins (c : Core) (t g : Nat) (pipe : Bool) : Bool :=
  c.turn.isEmpty || c.turn.contains (t, g) || 4 ≤ c.turn.length || 2 < c.pipes + pipe.toNat

def State.core (s : State) (c : Nat) : Core := s.cores.getD c Core.empty

def State.modCore (s : State) (c : Nat) (f : Core → Core) : State := { s with cores := s.cores.insert c (f (s.core c)) }

/-- Package time in nanoseconds (R311) and a core's cycle counter (R25), from ticks of 1/18 ns. -/
def State.ns (s : State) : Nat := s.now / 18
def State.cycles (s : State) : Nat := s.now / 5
/-- Ticks of a number of core cycles. -/
def ticksOfCycles (n : Nat) : Nat := 5 * n

/-- Draw a free choice among n (log entry 12). -/
def State.draw (s : State) (n : Nat) : Nat × State := (Config.choice s.free % max n 1, { s with free := s.free + 1 })

/-! ### The issuing split -/

/-- The split that issues the current instruction, with its team and group. -/
structure Issuer where
  tid : Nat
  gid : Nat
  sid : Nat
  team : Team
  grp : Group
  spl : Split
  pc : Dword
  len : Nat
  m : Bool
  guard : Option (BitVec 3 × Bool)
  ins : Instr
  cut : Option Nat

/-- The issuing split, if the state has it. -/
def State.issuer? (s : State) : Option Issuer :=
  match s.teams.find? s.cur.team with
  | none => none
  | some T => match T.groups.find? s.cur.grp with
    | none => none
    | some g => match g.splits.find? s.cur.split with
      | none => none
      | some e => some ⟨s.cur.team, s.cur.grp, s.cur.split, T, g, e, s.cur.pc, s.cur.len, s.cur.m, s.cur.guard, s.cur.ins, s.cur.cut⟩

/-- Run an instruction's effect for its issuing split (R106 item 1); without one nothing can execute. -/
def withIssuer (s : State) (f : Issuer → State) : Res :=
  match s.issuer? with
  | none => .refused .noIssuer
  | some c => .next (f c)

/-- A group is privileged exactly while it runs its team's handler (R233). -/
def Group.privileged (g : Group) : Bool := g.saved.isSome

/-- Predicate p[i] as a mask; p7 reads 1 (R19, R61). -/
def Group.pred (g : Group) (i : Nat) : Mask := if i = 7 then 0xFFFFFFFF#32 else g.p.getD i 0

/-- Write a predicate; a write to p7 is discarded (R61). -/
def Group.setPred (g : Group) (i : Nat) (m : Mask) : Group := if i = 7 then g else { g with p := g.p.put 0 i m }

/-- s[i] and the pair s[i+1]:s[i] (R39). -/
def Group.sreg (g : Group) (i : Nat) : Word := g.s.getD i 0
def Group.spair (g : Group) (i : Nat) : Dword := pair (g.sreg (i + 1)) (g.sreg i)

/-- Write s[i]; fresh data has no poison. -/
def Group.setS (g : Group) (i : Nat) (x : Word) : Group := { g with s := g.s.put 0 i x, sbad := setErase g.sbad i }

/-- Write the pair s[i+1]:s[i]. -/
def Group.setPair (g : Group) (i : Nat) (x : Dword) : Group := (g.setS i (loWord x)).setS (i + 1) (hiWord x)

/-- q and t registers (R19). -/
def Group.qreg (g : Group) (i : Nat) : Dword := g.q.getD i 0
def Group.setQ (g : Group) (i : Nat) (x : Dword) : Group := { g with q := g.q.put 0 i x }
def Group.treg (g : Group) (i : Nat) : BitVec 16 := g.t.getD i 0xFFFF
def Group.setT (g : Group) (i : Nat) (x : BitVec 16) : Group := { g with t := g.t.put 0xFFFF i x }

/-- The lanes in which a lane word is active: ACT and the guard, or the set a stopped instruction fixed (R14, R105). -/
def Issuer.active (c : Issuer) : Mask :=
  match c.spl.prog with
  | some p => p.act &&& c.grp.alive
  | none =>
    match c.guard with
    | none => c.spl.act
    | some (p, neg) => c.spl.act &&& (if neg then ~~~(c.grp.pred p.toNat) else c.grp.pred p.toNat)

/-- The issuing split's FMT (R26). -/
def Issuer.fmt (c : Issuer) : Fmt := c.spl.fmt

/-- The first lane not yet performed. -/
def Issuer.from (c : Issuer) : Nat := (c.spl.prog.map Progress.lane).getD 0

/-- The register a v source is read from: the mapping fixed at issue (R67, R105), zero where unmapped (R21). -/
def Issuer.src (c : Issuer) (n : Nat) : VReg :=
  match c.spl.prog.bind fun p => p.srcs.find? n with
  | some r => r
  | none => c.grp.v.getD n VReg.zero

/-- The s operand pair, fixed at issue (R79 item 2, R105). -/
def Issuer.sval (c : Issuer) (n : Nat) : Dword :=
  match c.spl.prog with
  | some p => p.sval
  | none => c.grp.spair n

/-- Lane k of a register. -/
def VReg.lane (r : VReg) (k : Nat) : Word := (r.lanes[k]?).getD 0

/-- Write the lanes of m. -/
def VReg.write (r : VReg) (m : Mask) (f : Nat → Word) : VReg :=
  ⟨Vector.ofFn fun i => if m.getLsbD i then f i else r.lanes[i], r.bad &&& ~~~m⟩

/-- The lanes of a mask below a lane. -/
def below (m : Mask) (k : Nat) : Mask := m &&& BitVec.ofNat 32 (2 ^ k - 1)

/-! ### Registers of a core (R22, R23, R281) -/

/-- The numbers of a core's outstanding and mapped registers that a group uses (R22); a handler's are counted apart (R281). -/
def Group.uses (g : Group) : Nat :=
  (match g.saved with | some x => x.v.length | none => g.v.length)
    + (g.ops.map fun o => if o.handler then 0 else o.dests.length).foldl (· + ·) 0

def Group.handlerUses (g : Group) : Nat :=
  g.v.length + (g.ops.map fun o => if o.handler then o.dests.length else 0).foldl (· + ·) 0

/-- The groups resident on a core that have not retired. -/
def State.residents (s : State) (core : Nat) : List Group :=
  s.teams.flatMap fun t =>
    if t.2.core = core then
      match t.2.st with
      | .out _ | .retired => []
      | _ => (t.2.groups.filter fun g => !g.2.retired).map Prod.snd
    else []

/-- Registers of the pool that no floor guarantees and no group holds (R22). -/
def State.poolLeft (s : State) (core : Nat) : Nat :=
  let gs := s.residents core
  let total := 512 * fld (s.core core).partition.toNat 0 6 - 64
  total - (gs.map fun g => max g.uses g.floor).foldl (· + ·) 0

/-- What a write that needs n more registers meets (R22, R281). -/
inductive Alloc where
  | ok | wait | illegal
deriving DecidableEq, Repr

/-- The names a handler has mapped or is about to map (R281). -/
def Group.handlerNames (g : Group) : List Nat :=
  (g.ops.flatMap fun o => if o.handler then o.dests else []).foldl setInsert (g.v.map Prod.fst)

/-- Whether a write that maps these names and needs n more registers can go on (R22, R281). -/
def State.alloc (s : State) (T : Team) (g : Group) (names : List Nat) (n : Nat) : Alloc :=
  if n = 0 then .ok
  else if g.privileged then
    if 63 < (names.foldl setInsert g.handlerNames).length then .illegal
    else if 64 < g.handlerUses + n then .wait else .ok
  else if g.uses + n ≤ max g.floor g.uses + s.poolLeft T.core then .ok else .wait

/-- The write to name n is still outstanding (R67). -/
def Group.vBusy (g : Group) (n : Nat) : Bool := g.ops.any fun o => o.handler == g.privileged && o.dests.contains n

/-- A lane instruction that has not ended writes s[n] at its end (R18, R82). -/
def Group.sComing (g : Group) (n : Nat) : Bool := g.anyWalk fun p => p.sdests.contains n
/-- A lane instruction that has not ended writes v[n] (R18). -/
def Group.vWalking (g : Group) (n : Nat) : Bool := g.anyWalk fun p => p.dsts.contains n || p.fresh.any fun x => x.1 == n
/-- A lane instruction that has not ended has read s[n] at its issue (R82). -/
def Group.sHeld (g : Group) (n : Nat) : Bool := g.anyWalk fun p => p.sreads.contains n
/-- A write to s[n] is still to come (R67, R82). -/
def Group.sBusy (g : Group) (n : Nat) : Bool := g.sComing n || g.ops.any fun o => o.sdests.contains n

/-! ### Finishing, stalling, blocking -/

/-- Count an issue: for R274, of the program (R69; a handler's are no part of its SKID), and as skid if the team is halting
(R278, R282). -/
def Group.issue (g : Group) (no : Nat) (skid : Bool) : Group :=
  { g with
    lastIssue := no
    issued := if g.saved.isSome then g.issued else g.issued + 1
    skidLeft := if skid then g.skidLeft - 1 else g.skidLeft
    haltSkid := if skid then g.haltSkid + 1 else g.haltSkid }

def TeamSt.isHalting : TeamSt → Bool
  | .halting _ => true
  | _ => false

/-- Count the issue of the current instruction; one that continues has been counted (R283). -/
def Issuer.count (c : Issuer) (s : State) : State :=
  if c.spl.prog.isSome then s
  else
    let s := { s with issues := s.issues + 1 }
    s.modGroup c.tid c.gid fun g => g.issue s.issues c.team.st.isHalting

/-- The split goes on at pc; a marker parks it until every kind-L instruction numbered so far is complete (R68). -/
def Issuer.goto (c : Issuer) (pc : Dword) (s : State) : State :=
  (c.count s).modGroup c.tid c.gid fun g => g.modSplit c.sid fun e =>
    { e with pc := pc, prog := none, wait := .none,
             mark := if c.m then some g.nextOp else none, st := if c.m then .blocked else .ready }

/-- The next instruction's address. -/
def Issuer.next (c : Issuer) : Dword := c.pc + BitVec.ofNat 64 c.len

/-- The split goes on at the next instruction; where it has done so already (R17), its oldest lane instruction has ended. -/
def Issuer.finish (c : Issuer) (s : State) : State :=
  if c.spl.prog.isSome then s.modSplit c.tid c.gid c.sid fun e => e.setWalks e.later else c.goto c.next s

/-- The split goes on at the next instruction once a wait is over (R33). -/
def Issuer.finishWait (c : Issuer) (w : Wait) (s : State) : State :=
  (c.finish s).modSplit c.tid c.gid c.sid fun e => { e with wait := w, st := .blocked }

/-- The instruction waits at issue without blocking its split. -/
def Issuer.stall (c : Issuer) (s : State) : State := { s with stalls := (c.tid, c.gid, c.sid) :: s.stalls }

/-- A lane instruction in its pipe waits there. -/
def Issuer.stallWalk (c : Issuer) (s : State) : State := { s with stalls := (c.tid, c.gid, 64 + c.sid) :: s.stalls }

/-- The instruction stays in its pipe with lanes left (R14, R105): the split continues it, and may issue the instructions after it (R17). -/
def Issuer.pause (c : Issuer) (p : Progress) (s : State) : State :=
  let s := if c.spl.prog.isSome then s else c.goto c.next s
  s.modSplit c.tid c.gid c.sid fun e => { e with prog := some p }

/-- The split is BLOCKED and executes the instruction again when the wait is over. -/
def Issuer.retry (c : Issuer) (w : Wait) (s : State) : State :=
  s.modSplit c.tid c.gid c.sid fun e => { e with wait := w, st := .blocked }

/-! ### The transaction table (R140) -/

/-- The entry of the transaction table that an access takes: its 64-byte line, or its packet's 256-byte line; a pad access takes none. -/
def LaneAcc.entry (a : LaneAcc) : Option Nat :=
  if a.pad.isSome then none else if a.fab then some (2 * (a.ea.toNat / 256) + 1) else some (2 * (a.ea.toNat / 64))

/-- The entries that one instruction still holds, each shared by the lanes that touch it. -/
def Group.entriesOf (g : Group) (id : Nat) : List Nat :=
  let sent := (g.ops.filter fun o => o.id == id).flatMap fun o => o.accs.filterMap LaneAcc.entry
  let held := (g.wbuf.filter fun b => b.id == id).map fun b => 2 * (b.ea.toNat / 64)
  (sent ++ held).foldl setInsert []

/-- The entries that a group holds. -/
def Group.entries (g : Group) : Nat :=
  (((g.ops.map LOp.id) ++ g.wbuf.map Buffered.id).foldl setInsert []).foldl (fun n id => n + (g.entriesOf id).length) 0

/-- The entries taken in a core's transaction table. -/
def State.entriesTaken (s : State) (core : Nat) : Nat :=
  s.teams.foldl (fun n t => if t.2.core = core ∧ t.2.here then t.2.groups.foldl (fun n g => n + g.2.entries) n else n) 0

/-- The free entries of a core's transaction table, of 512. -/
def State.entriesFree (s : State) (core : Nat) : Nat := 512 - s.entriesTaken core

/-! ### Snapshots (R290) -/

def SplitSt.code : SplitSt → Nat
  | .ready => 1 | .blocked => 2 | .arrived => 3 | .parent => 4 | .frozen => 5

/-- A group's state as R34 lists them. -/
def Group.code (T : Team) (g : Group) : Nat :=
  if g.retired then 5
  else match T.st with
    | .out _ => 4
    | .halted | .halting _ => 3
    | _ => if g.ready then 1 else 2

/-- The team is resident on a core, started or not (R35). -/
def Team.resident (T : Team) : Bool := match T.st with
  | .out _ | .retired => false
  | _ => true

/-- What a core's bank latches; of a group that runs a handler, its split and those of the interrupted program. -/
def State.latch (s : State) (core : Nat) : SnapCore :=
  let ts := s.teams.filter fun t => t.2.core == core && t.2.resident
  { core := core, clk := s.cycles
    groups := ts.flatMap fun t => t.2.groups.map fun g =>
      (g.1, Group.code t.2 g.2, (g.2.splits ++ (g.2.saved.map Saved.splits).getD []).map fun e => ⟨e.1, e.2.pc, e.2.act, e.2.st.code⟩)
    issues := (s.recent.filter fun r => r.1 == core).map fun r => (r.2.1, r.2.2)
    occupancy := s.entriesTaken core
    banks := (List.range 4).map fun b =>
      (ts.flatMap fun t => t.2.groups.flatMap fun g => g.2.wbuf.filter fun w => w.bank == b).length }

/-- What the banks of the other blocks latch (log entry 51): the tokens parked at a sector controller and on a die's translation engine, the
tail slots in use of a die cache, the operations that run on a core's engines or a session's encoder, the launches at the scheduler. -/
def State.latchRest (s : State) : List SnapBlock :=
  let tokens (p : Park → Bool) : List Nat := (s.parked.filter fun x => p x.2).map Prod.fst
  let ops := s.ectxs.flatMap fun c => (c.2.pend.filter EOp.running).map fun o => (c, o)
  (List.range 64).map (fun x => ⟨1, x, tokens fun p => p.sector == x⟩) ++
    (List.range 8).map (fun d => ⟨2, d, tokens fun p => p.sector / 8 == d⟩) ++
    (List.range 8).map (fun d => ⟨3, d, (s.tails.map Prod.fst).filter fun t => t / 4096 == d⟩) ++
    (ops.map fun x => match x.1.2.owner with
      | .encoder e => ⟨5, ((s.pkg.sessions.find? e).map Session.encoder).getD 0, [x.1.1, x.2.num, x.2.prog]⟩
      | _ => ⟨4, x.2.core, [x.1.1, x.2.num, x.2.prog]⟩) ++
    [⟨6, 0, (s.launches.filter fun l => !l.2.complete).map Prod.fst⟩]

/-- Fire the trigger for a context: if its banks are armed they latch and disarm, else nothing happens (R290). -/
def State.trigger (s : State) (space : Nat) : State :=
  match s.ctxs.find? space with
  | some x =>
    if x.armed then
      let cores := s.recent.foldl (fun l r => setInsert l r.1) (s.teams.foldl (fun l t => setInsert l t.2.core) [])
      { s with pkg := { s.pkg with snaps := cores.map s.latch, snapRest := s.latchRest, snapTime := s.ns }
               ctxs := s.ctxs.map fun c => (c.1, { c.2 with armed := false }) }
    else s
  | none => s

/-! ### Taking an exception (R276 to R282) -/

/-- The number of a cause (R277). -/
def Cause.num : Cause → Nat
  | .illegal => 1 | .priv => 2 | .align => 3 | .xlat => 4 | .prot => 5 | .pad => 6 | .stale => 7 | .quota => 8 | .hown => 9
  | .member => 10 | .jtab => 11 | .braid => 12 | .trap => 13 | .bkpt => 14 | .ecc => 15 | .future => 16 | .fabric => 17

/-- FCAUSE (R276). -/
def FaultRec.fcause (r : FaultRec) : Word :=
  BitVec.ofNat 32 (r.cause.num + r.detail % 256 * 256 + r.held.toNat * 65536)

/-- The special registers a delivered fault sets in its group (R25, R69, R282). -/
def FaultRec.regs (r : FaultRec) (skid : Nat) : FaultRegs :=
  { flt := r.lanes, pix := BitVec.ofNat 32 r.pix, skid := BitVec.ofNat 32 skid, fpc := r.pc, fcause := r.fcause, fopn := r.opn,
    fopc := r.opc, faddr := r.addr, fit := r.fit }

/-- A fatal fault retires its team with status failed (R280): the team is halted with a cause, waiting for its retirement; its
handler, if one runs, is over, though its core starts no other before the retirement (R281). It raises vector 2 (R357); an eviction without room,
of cause 0 (R321), is no fault. -/
def State.failTeam (s : State) (t cause : Nat) : State :=
  match s.teams.find? t with
  | none => s
  | some T =>
    let s := s.modTeam t fun T => { T with st := .halted, cause := some cause, handling := none }
    let s := s.modCore T.core fun c => { c with haltQ := setErase c.haltQ t, knot := c.knot.filter fun k => k.team != t }
    let s := if cause = 0 then s else { s with pkg := { s.pkg with msix := s.pkg.msix ++ [2] } }
    s.trigger T.space

/-- A fault in this group of this team is fatal (R280). -/
def State.fatal (s : State) (T : Team) (g : Group) : Bool :=
  g.privileged || match s.ctxs.find? T.space with
    | some x => x.handler == 0 || x.fatal
    | none => true

/-- The splits of a group that wait in a knot execute their instruction again. -/
def Split.unknot (e : Split) : Split :=
  if e.wait = .knot then
    { e with wait := .none
             st := if e.st = .blocked then .ready else e.st
             back := if e.back = .blocked then .ready else e.back }
  else e

def Group.unknot (g : Group) : Group :=
  { g with
    haltCause := if g.haltCause = 0 ∧ g.splits.any (fun e => e.2.wait == .knot) then 12 else g.haltCause
    splits := List.map (fun e => (e.1, e.2.unknot)) g.splits }

/-- Withdraw a team's groups from their core's knot (R174): their splits execute the braided instruction again. -/
def State.unknot (s : State) (t core : Nat) : State :=
  if (s.core core).knot.any fun k => k.team == t then
    let s := s.modCore core fun c => { c with knot := c.knot.filter fun k => k.team != t }
    s.modTeam t fun T => { T with groups := List.map (fun g => (g.1, g.2.unknot)) T.groups }
  else s

/-- TAKE A FAULT in group g of team t (R278 to R280). In a running team: the fault registers are set, the group's splits freeze,
and the team halts, each sibling with its draw of skid; a fatal fault fails the team; in a team already halting or halted the
fault is pending in its group. `first` is false where a RESUME delivers the next fault, with SKID 0 in every sibling (R279). -/
def State.deliverWith (first : Bool) (s : State) (t g : Nat) (r : FaultRec) : State :=
  match s.teams.find? t with
  | none => s
  | some T =>
    match T.groups.find? g with
    | none => s
    | some G =>
      if G.privileged then s.failTeam t r.cause.num
      else if T.st != .running then
        s.modGroup t g fun G => { G.freeze with pending := G.pending ++ [{ r with issue := G.issued }], skidLeft := 0 }
      else
        let skid := G.issued - r.issue
        let s := s.modGroup t g fun G =>
          { G.freeze with fr := r.regs skid, haltCause := r.cause.num, haltSkid := skid, sibling := false, handled := r.split }
        if s.fatal T G then s.failTeam t r.cause.num
        else
          let draw := s.free
          let skids (x : Nat × Group) : Nat × Group :=
            if x.1 = g then x
            else (x.1, { x.2 with skidLeft := if first then Config.skid (draw + x.1) % 3 else 0, haltCause := 0, haltSkid := 0,
                                  sibling := true })
          State.modTeam { s with free := s.free + T.groups.length } t fun T =>
            { T with st := .halting g, faulting := some g, groups := List.map skids T.groups }

def State.deliver (s : State) (t g : Nat) (r : FaultRec) : State := s.deliverWith true t g r

/-- A fault record of the current instruction. -/
def Issuer.record (c : Issuer) (cause : Cause) (lanes : Mask) : FaultRec :=
  { op := 0, split := c.sid, pc := c.pc, cause := cause, lanes := lanes, detail := 0, addr := 0, pix := 0, issue := c.grp.issued,
    held := false, opn := 0, opc := 0, fit := [] }

/-- Raise a cause at issue: FLT the split's ACT (R64, R106 item 5), nothing executed. -/
def Issuer.raise (c : Issuer) (cause : Cause) (s : State) : State :=
  s.deliver c.tid c.gid (c.record cause c.spl.act)

/-- Raise a cause with FLT := lanes. -/
def Issuer.raiseLanes (c : Issuer) (cause : Cause) (lanes : Mask) (s : State) : State :=
  s.deliver c.tid c.gid (c.record cause lanes)

/-- Raise a cause in the pipe at lane k (R79 item 4, R135): PIX names the lane, the lanes below are done, and the instruction
keeps its progress (R105); SKID counts what its group has issued since (R277). -/
def Issuer.raiseAt (c : Issuer) (cause : Cause) (k : Nat) (addr : Dword) (p : Progress) (s : State) : State :=
  (c.pause p s).deliver c.tid c.gid
    { c.record cause (Mask.one k) with pix := k + (if p.pass2 then 32 else 0), addr := addr, issue := p.issue }

/-- The PC at which the handled split resumes (R282): that of the lane instruction which stopped at the fault, where one did, else of its
next instruction. The lane instructions in a split's pipes have addresses of their own. -/
def resumePc (splits : SMap Split) (handled : Nat) (fpc : Dword) : Dword :=
  ((splits.find? handled).map fun e => if e.walks.any fun p => p.pc == fpc then fpc else e.pc).getD 0

/-- START THE HANDLER (R220, R281) in the group that took the fault: what it interrupts is set aside, its own v, p and split
begin empty, and its pc is the context's handler. -/
def State.enterHandler (s : State) (t g : Nat) (entry : Dword) : State :=
  (s.modTeam t fun T => { T with handling := some g }).modGroup t g fun G =>
    { G with
      saved := some { v := G.v, p := G.p, splits := G.splits, held := G.held, firstOp := G.nextOp, handled := G.handled,
                      rpch := hiWord (resumePc G.splits G.handled G.fr.fpc) }
      held := []
      v := []
      p := []
      splits := [(0, { mask := G.alive, act := G.alive, pc := entry, jpc := 0, fmt := 0, parent := 0, st := .ready, tof := false,
                       back := .ready, wait := .none, mark := none, timer := none, joint := false, prog := none, later := []
                       all := 0xFFFFFFFF#32 })] }

/-- An instruction stopped at a lane boundary has lanes still to be sent (R105). -/
def Group.stopped (g : Group) (id : Nat) : Bool :=
  (g.splits ++ (g.saved.map Saved.splits).getD []).any fun e => e.2.walks.any fun p => p.op == some id

/-- Nothing that an instruction stopped at a handler's entry has sent is outstanding: the handler does not wait for it (R251). -/
def Group.unstarted (g : Group) (o : LOp) : Bool := g.privileged && g.stopped o.id && o.accs.isEmpty && o.res.isEmpty

/-- Lanes that are switched off no longer count for an instruction (R139): nothing else of it is to come. -/
def LOp.spent (o : LOp) (off : Mask) : Bool := o.res.isEmpty && o.accs.all fun a => off.getLsbD a.lane

/-- What counts for an instruction to be complete (R66, R139) is still to come. -/
def LOp.owes (o : LOp) (off : Mask) : Bool := !(o.spent off) || match o.kind with
  | .tstat _ _ _ _ | .ttov _ _ _ _ _ | .view _ _ _ | .stepEnd _ _ | .kvalloc _ _ _ | .sdiv _ _ => true
  | _ => false

/-- An instruction is outstanding (R66). -/
def Group.outstanding (g : Group) (o : LOp) : Bool := o.owes g.padFault || g.stopped o.id || !o.dests.isEmpty || !o.faults.isEmpty

/-- A marker for the instructions below `upto` still waits (R68). -/
def Group.awaits (g : Group) (upto : Nat) : Bool := g.ops.any fun o => o.id < upto && g.outstanding o && !g.unstarted o

/-- The held fault that is due at a marker for the instructions below `upto`: the oldest instruction's, then by lowest lane (R136),
once they are complete. -/
def Group.dueFault (g : Group) (upto : Nat) : Option FaultRec :=
  if g.awaits upto then none
  else
    let low (m : Mask) : Nat := (m.lanes.head?).getD 32
    (g.held.filter fun f => f.op < upto).foldl (fun b f => match b with
      | none => some f
      | some x => if f.op < x.op || f.op == x.op && low f.lanes < low x.lanes then some f else b) none

/-- The marker a split waits at: its own, or EXIT's (R68, R69). -/
def Split.marker (e : Split) : Option Nat :=
  match e.wait with
  | .exitMarker n => some n
  | _ => e.mark

/-- The fault that a group delivers before anything issues after a RESUME: its next held fault, if a split of it still waits at a
marker for that (R136), else its first pending one, with SKID 0 (R279); and the group without it. -/
def Group.nextFault (g : Group) : Option (FaultRec × Group) :=
  let held := g.splits.findSome? fun e => (e.2.marker.bind g.dueFault).map fun f => { f with split := e.1 }
  match held with
  | some f => some (f, { g with held := g.held.filter fun x => !(x.op == f.op && x.cause == f.cause) })
  | none => match g.pending with
    | [] => none
    | r :: rest => some ({ r with issue := g.issued }, { g with pending := rest })

/-- Deliver the next fault of a team, of the lowest group that has one (R136, R279). -/
def State.nextFault (s : State) (t : Nat) : State :=
  match (s.teams.find? t).bind fun T => T.groups.findSome? fun g => g.2.nextFault.map fun x => (g.1, x) with
  | none => s
  | some (g, r, G) => (s.modGroup t g fun _ => G).deliverWith false t g r

/-- A handler's outstanding instruction after RESUME: its registers are gone, its accesses are still performed, before all that the group
issues now (R251). -/
def LOp.orphan (o : LOp) : LOp := if o.handler then { o with handler := false, dests := [], nv := [], mask := 0xFFFFFFFF#32 } else o
def Buffered.orphan (b : Buffered) : Buffered := if b.handler then { b with handler := false, mask := 0xFFFFFFFF#32 } else b

/-- The numbers of the stopped kind-L instructions of some splits, rising. -/
def stoppedOps (splits : SMap Split) : List Nat := (splits.flatMap fun e => e.2.walks.filterMap Progress.op).foldl setInsert []

/-- Where a handler has run, the accesses that stopped instructions still send follow the handler's in program order, in the order of their
issue (R251). -/
def Group.resumeOrder (g : Group) : Group :=
  let ids := stoppedOps g.splits
  let place (p : Progress) : Progress := { p with ord := p.op.map fun id => g.nextOp + (ids.idxOf? id).getD 0 }
  { g with
    nextOp := g.nextOp + ids.length
    splits := List.map (fun (e : Nat × Split) => (e.1, e.2.mapWalks place)) g.splits }

/-- RETURN FROM THE HANDLER (R283): its maps and predicates are freed, what it set aside comes back, every FROZEN split of the
team returns to its state, and the next pending fault, of the lowest group, is delivered before anything issues (R279). -/
def State.resumeTeam (s : State) (t : Nat) : State :=
  match s.teams.find? t with
  | none => s
  | some T =>
    let back (G : Group) : Group :=
      match G.saved with
      | none => { G.thaw with sibling := false }
      | some x =>
        Group.resumeOrder { G with v := x.v, p := x.p, splits := x.splits, held := x.held ++ G.held, saved := none, sibling := false
                                   ops := G.ops.map LOp.orphan, wbuf := G.wbuf.map Buffered.orphan }.thaw
    let s := s.modTeam t fun T =>
      { T with st := .running, handling := none, debug := false, groups := List.map (fun g => (g.1, back g.2)) T.groups }
    let s := s.modCore T.core fun c => { c with handler := if c.handler = some t then none else c.handler }
    s.nextFault t

/-! ### Retirement of a group (R34) -/

/-- The group's lanes are gone and its kind-L work is complete: it retires, and its hearth ownerships and registers are
released. -/
def State.retireGroup (s : State) (t g : Nat) : State :=
  (s.modGroup t g fun G => { G with retired := true, v := [], splits := [], held := [], pending := [] }).modTeam t fun T =>
    { T with hearth := List.map (fun (h : Nat × Hearth) =>
        (h.1, if h.2.owner = some g then { h.2 with owner := none } else h.2)) T.hearth }

/-- R30 and R31 for a group, frozen while its team is not running it. -/
def Team.holds (T : Team) (G : Group) : Bool := T.st != .running && !G.privileged

def State.settle (s : State) (t g : Nat) : State :=
  s.modTeam t fun T => T.modGroup g fun G => G.settle (T.holds G)

/-- Lanes that are switched off take no value any more (R143): a load's or a unit's results for them are dropped, half a value with them. -/
def LOp.offLanes (m : Mask) (o : LOp) : LOp :=
  let keep (a : LaneAcc) : Bool := !(o.kind.isLoad && m.getLsbD a.lane)
  { o with
    wrote := o.wrote &&& ~~~Mask.ofLanes ((o.accs.filter fun a => !keep a).map LaneAcc.lane)
    res := o.res.filter fun r => !m.getLsbD r.1
    accs := o.accs.filter keep }

/-- Switch lanes off (R143), in the group's interrupted splits as well while a handler runs. -/
def State.leave (s : State) (t g : Nat) (m : Mask) : State :=
  s.modTeam t fun T => T.modGroup g fun G =>
    let G' := { G with ops := G.ops.map (LOp.offLanes m) }.leave (T.holds G) m
    match G'.saved with
    | none => G'
    | some x =>
      let old := { G' with splits := x.splits, saved := none }.leave true m
      { G' with saved := some { x with splits := old.splits } }

/-! ### Kind-L instructions (R66 to R69) -/

/-- The outstanding instruction with this number. -/
def Group.op? (g : Group) (id : Nat) : Option LOp := g.ops.find? fun o => o.id == id

def Group.modOp (g : Group) (id : Nat) (f : LOp → LOp) : Group :=
  { g with ops := g.ops.map fun o => if o.id = id then f o else o }

/-- Nothing of an outstanding instruction is still to come. -/
def LOp.over (o : LOp) : Bool := o.res.isEmpty && o.accs.isEmpty && match o.kind with
  | .tstat _ _ _ _ | .ttov _ _ _ _ _ | .view _ _ _ | .stepEnd _ _ | .kvalloc _ _ _ | .sdiv _ _ => false
  | _ => true

/-- The map an instruction's results go to: the handler's or the program's (R220). -/
def Group.mapFor (g : Group) (handler : Bool) : SMap VReg :=
  if handler == g.privileged then g.v else (g.saved.map Saved.v).getD []

def Group.setMapFor (g : Group) (handler : Bool) (m : SMap VReg) : Group :=
  if handler == g.privileged then { g with v := m }
  else { g with saved := g.saved.map fun x => { x with v := m } }

/-- Keep, for stopped instructions, the mapping of name n that is about to be replaced (R105). -/
def Split.keep (n : Nat) (r : VReg) (e : Split) : Split :=
  e.mapWalks fun p => if (p.srcs.find? n).isSome then p else { p with srcs := p.srcs.insert n r }

/-- Add a held fault to a list: one for each cause of an instruction, its address that of the lowest lane (R136, R282). -/
def holdFault (l : List FaultRec) (f : FaultRec) : List FaultRec :=
  match l.find? fun x => x.op == f.op && x.cause == f.cause with
  | none => l ++ [f]
  | some x =>
    let low (m : Mask) : Nat := (m.lanes.head?).getD 32
    let y := { x with lanes := x.lanes ||| f.lanes, addr := if low x.lanes < low f.lanes then x.addr else f.addr }
    l.map fun z => if z.op = f.op ∧ z.cause = f.cause then y else z

/-- Hold a fault until a marker: while a handler runs, a fault of the interrupted program waits with it (R69); one raised while the team
halts for another group is pending (R278). -/
def Group.hold (g : Group) (f : FaultRec) : Group :=
  match g.saved with
  | none =>
    if g.sibling then { g with pending := holdFault g.pending { f with held := false, issue := g.issued } }
    else { g with held := holdFault g.held f }
  | some x =>
    if f.op < x.firstOp then { g with saved := some { x with held := holdFault x.held f } }
    else { g with held := holdFault g.held f }

/-- Complete an instruction (R21 item 3): each destination switches to its new register, whose unwritten lanes come from the
mapping it replaces. Its faults become held. What lanes since switched off have sent is still performed (R139, R251). -/
def Group.complete (g : Group) (o : LOp) : Group :=
  let m := g.mapFor o.handler
  let switch (m : SMap VReg) (d : Nat × VReg) : SMap VReg :=
    let old := m.getD d.1 VReg.zero
    m.insert d.1 ⟨Vector.ofFn fun i => if o.wrote.getLsbD i then d.2.lanes[i] else old.lanes[i],
                  d.2.bad &&& o.wrote ||| old.bad &&& ~~~o.wrote⟩
  let keepAll (e : Nat × Split) : Nat × Split :=
    (e.1, o.dests.foldl (fun x n => x.keep n (m.getD n VReg.zero)) e.2)
  let g := (g.setMapFor o.handler ((o.dests.zip o.nv).foldl switch m))
  let g := if o.handler == g.privileged then { g with splits := g.splits.map keepAll }
    else { g with saved := g.saved.map fun x => { x with splits := x.splits.map keepAll } }
  let left (x : LOp) : Option LOp :=
    if x.id != o.id then some x
    else if o.accs.isEmpty then none else some { o with dests := [], nv := [], sdests := [], faults := [] }
  (o.faults.filter fun f => f.lanes &&& ~~~g.padFault != 0).foldl Group.hold { g with ops := g.ops.filterMap left }

/-- Nothing that counts is still to come of an instruction that is not complete. -/
def LOp.due (o : LOp) (off : Mask) : Bool := o.over || !o.owes off && (!o.dests.isEmpty || !o.faults.isEmpty)

/-- Complete every instruction with nothing left to come, oldest first, where no older one writes the same name (R21 item 3). -/
def Group.sweepN : Nat → Group → Group
  | 0, g => g
  | n + 1, g =>
    match g.ops.find? fun o => o.due g.padFault && !g.stopped o.id &&
        !g.ops.any fun x => x.id < o.id && x.dests.any fun d => o.dests.contains d with
    | some o => Group.sweepN n (g.complete o)
    | none => g

def Group.sweep (g : Group) : Group := Group.sweepN (g.ops.length + 1) g

/-- Add an outstanding instruction under the next number. -/
def Group.push (g : Group) (o : LOp) : Group := { g with ops := g.ops ++ [{ o with id := g.nextOp }], nextOp := g.nextOp + 1 }

/-- A kind-L instruction of the issuing split with nothing in it yet. -/
def Issuer.lop (c : Issuer) (kind : LKind) : LOp :=
  { id := 0, pc := c.pc, split := c.sid, mask := c.spl.all, issue := c.grp.issued + 1, handler := c.grp.privileged, kind := kind,
    sdests := [], dests := [], nv := [], wrote := 0, res := [], accs := [], faults := [], shadow := [], coming := [], barred := false }

end Sys2Proof.Machine
end

