-- ==== Sys2Proof/Machine/Operands.lean ====
section
/-! DEFINITION. Every operand form: branch targets (R77, R111, R112), addresses of lanes (R133), packed elements (R42),
immediates (R52), bit fields (R84). -/
namespace Sys2Proof.Machine

/-- The target of a GB word: PC + 4 + 4 × sext(off17) (R77). -/
def target (pc : Dword) (off : BitVec 17) : Dword := pc + 4 + 4 * off.signExtend 64

/-- The target of BRA.L and CALL.L: address of the imm32 word + 4 + 4 × imm32 (R111). -/
def targetL (pc : Dword) (imm : Word) : Dword := pc + 8 + 4 * imm.signExtend 64

/-- An address as a PC: bits [1:0] are always 0 (R57); bits [63:57] stay, to be met at the fetch (R113). -/
def pcOf (a : Dword) : Dword := a &&& 0xFFFFFFFFFFFFFFFC#64

/-- A 16-bit immediate sign-extended, zero-extended, and as a BF16 widened (R52). -/
def sext16 (i : BitVec 16) : Word := i.signExtend 32
def zext16 (i : BitVec 16) : Word := i.setWidth 32
def bf16Imm (i : BitVec 16) : FV := bf16.dec i.toNat

/-- Half i, byte i, nibble i of a word (R42). -/
def half (w : Word) (i : Nat) : Nat := fld w.toNat (16 * i) 16
def byteOf (w : Word) (i : Nat) : Nat := fld w.toNat (8 * i) 8
def nibble (w : Word) (i : Nat) : Nat := fld w.toNat (4 * i) 4

/-- Replace the n bits of w at lo by x. -/
def putField (w : Word) (lo n x : Nat) : Word :=
  let hole : Word := BitVec.ofNat 32 ((2 ^ n - 1) * 2 ^ lo)
  w &&& ~~~hole ||| BitVec.ofNat 32 (x % 2 ^ n * 2 ^ lo)

/-- Two halves as a word. -/
def halves (hi lo : Nat) : Word := BitVec.ofNat 32 (hi % 65536 * 65536 + lo % 65536)

/-- A function of each half. -/
def eachHalf (f : Nat → Nat → Nat) (x y : Word) : Word := halves (f (half x 1) (half y 1)) (f (half x 0) (half y 0))

/-- The field of R84: its position and length L from y. -/
def fieldPos (y : Word) : Nat := fld y.toNat 0 8
def fieldLen (y : Word) : Nat := if 32 ≤ fieldPos y then 0 else min (fld y.toNat 8 8) (32 - fieldPos y)

/-- BFX (R84). -/
def bfx (signed : Bool) (x y : Word) : Word :=
  let l := fieldLen y
  if l = 0 then 0
  else
    let v := fld x.toNat (fieldPos y) l
    if signed && fld v (l - 1) 1 == 1 then BitVec.ofNat 32 (v + 2 ^ 32 - 2 ^ l) else BitVec.ofNat 32 v

/-- BFI (R92). -/
def bfi (x y z : Word) : Word := putField z (fieldPos y) (fieldLen y) x.toNat

/-- The 64-bit value of a pair of v registers in one lane (R85). -/
def pairOf (v : Nat → Word) (n : Nat) : Dword := pair (v (n + 1)) (v n)

/-- The address of one lane (R133): global forms, with imm5 × size. -/
def eaOf (base : Dword) (off : Word) (imm size : Nat) : Dword := base + off.signExtend 64 + BitVec.ofNat 64 (imm * size)

/-- The pad offset of one lane, exact (R133). -/
def padOff (base : Word) (off : Word) (imm size : Nat) : Int := (base.toNat : Int) + off.toInt + (imm * size : Nat)

/-- Count one bits; the lowest one bit, or 32; leading zeros; reversed bits (R93, R108). -/
def popc (x : Word) : Nat := ((List.range 32).filter fun i => x.getLsbD i).length
def ff1 (x : Word) : Nat := ((List.range 32).find? fun i => x.getLsbD i).getD 32
def clz (x : Word) : Nat := ((List.range 32).find? fun i => x.getLsbD (31 - i)).getD 32
def brev (x : Word) : Word := x.reverse

/-- A signed sum or difference clamped to 32 bits (R83). -/
def clampS (t : Int) : Word := BitVec.ofInt 32 (max (-2147483648) (min 2147483647 t))

/-- Shifts by an unsigned count (R83). -/
def shl (x : Word) (c : Nat) : Word := if 32 ≤ c then 0 else x <<< c
def shr (x : Word) (c : Nat) : Word := if 32 ≤ c then 0 else x >>> c
def sar (x : Word) (c : Nat) : Word := x.sshiftRight (min c 31)

/-- The high words of products (R83). -/
def mulHiS (x y : Word) : Word := BitVec.ofInt 32 (x.toInt * y.toInt / 4294967296)
def mulHiU (x y : Word) : Word := BitVec.ofNat 32 (x.toNat * y.toNat / 4294967296)

end Sys2Proof.Machine
end

