-- ==== Sys2Proof/Machine/Walk.lean ====
section
/-! DEFINITION. The walk of a lane word down its pipe (R14, R79 to R82, R99 to R105), one definition for each shape: a value
per lane, an outcome into a predicate, a running value, two passes, a function unit. A walk ends, stops at a lane that raises a
fault, or is left in the pipe at a lane boundary until the group's next step (log entry 11). -/
namespace Sys2Proof.Machine

/-- The lanes of m from lane i up. -/
def fromLane (m : Mask) (i : Nat) : Mask := m &&& ~~~(BitVec.ofNat 32 (2 ^ i - 1))

/-- The lanes in which some source register is poisoned (R79 item 4). -/
def Issuer.badLanes (c : Issuer) (srcs : List Nat) : Mask := srcs.foldl (fun m n => m ||| (c.src n).bad) 0

/-- Where a walk ends before its last lane: at a fault, or in the pipe. -/
inductive LaneStop where
  | fault (k : Nat)
  | pause (k : Nat)
deriving DecidableEq, Repr

def LaneStop.lane : LaneStop → Nat
  | .fault k | .pause k => k

/-- The step interrupts the first pass before lane k; one that continues performs a lane at least. -/
def Issuer.cutAt (c : Issuer) (k : Nat) : Bool := match c.cut with
  | none => false
  | some n => n ≤ k && (c.spl.prog.isNone || c.from < k)

/-- The step interrupts the second pass before lane k. -/
def Issuer.cutAt2 (c : Issuer) (k : Nat) : Bool := match c.cut with
  | none => false
  | some n => 32 ≤ n && n - 32 ≤ k && (!c.spl.prog.any Progress.pass2 || c.from < k)

/-- The first of the lanes still to be walked that meets a fault, or before which the walk is interrupted. -/
def stopAt (cut : Nat → Bool) (todo bad : Mask) : Option LaneStop :=
  (todo.lanes.find? fun k => cut k || bad.has k).map fun k => if cut k then .pause k else .fault k

/-- The lanes of a walk that complete: those still to be walked, below the one it stops at. -/
def doneLanes (todo : Mask) : Option LaneStop → Mask
  | none => todo
  | some x => below todo x.lane

/-- New registers a word needs at issue (R21 items 1 and 6). -/
def Issuer.needs (c : Issuer) (dsts : List Nat) : List Nat :=
  dsts.filter fun n => !(c.grp.v.find? n).isSome && !((c.spl.prog.bind fun p => p.fresh.find? n).isSome)

/-- The register a word writes a destination into: in place, or a fresh one where the word reads that name for the last time. -/
def Issuer.dest (c : Issuer) (last : List Nat) (n : Nat) : VReg :=
  if last.contains n then ((c.spl.prog.bind fun p => p.fresh.find? n)).getD VReg.zero else c.grp.v.getD n VReg.zero

/-- Stopped instructions keep the mappings of these names, which are about to be freed or replaced (R105). -/
def Group.keepNames (g : Group) (ns : List Nat) : Group :=
  { g with splits := List.map (fun (e : Nat × Split) =>
      (e.1, ns.foldl (fun x n => x.keep n (g.v.getD n VReg.zero)) e.2)) g.splits }

/-- Free the names that a word has read for the last time (R21 item 5). -/
def Group.freeNames (g : Group) (last : List Nat) : Group :=
  { g.keepNames last with v := last.foldl (fun m n => SMap.erase m n) g.v }

/-- The map after a word is done: names it read for the last time are freed, its destinations written. -/
def Group.finishMap (g : Group) (last : List Nat) (ds : List (Nat × VReg)) : Group :=
  let g := g.freeNames last
  { g with v := ds.foldl (fun m d => m.insert d.1 d.2) g.v }

/-- The map when a word stops at a lane: nothing freed, destinations that are not fresh written. -/
def Group.stopMap (g : Group) (last : List Nat) (ds : List (Nat × VReg)) : Group :=
  { g with v := ds.foldl (fun m d => if last.contains d.1 then m else m.insert d.1 d.2) g.v }

/-- Poison of the s operand that a word reads at issue, from these registers (R79). -/
def Issuer.sPoison (c : Issuer) (rs : List Nat) : Bool := match c.spl.prog with
  | some p => p.sbad
  | none => rs.any c.grp.sbad.contains

/-- The progress kept at a stop: `reads` are the s registers read at issue. -/
def Issuer.progress (c : Issuer) (k : Nat) (act : Mask) (last : List Nat) (ds : List (Nat × VReg)) (reads : List Nat) (sval : Dword) : Progress :=
  { pc := c.pc, ins := c.ins, len := c.len, m := c.m, issue := (c.spl.prog.map Progress.issue).getD (c.grp.issued + 1)
    lane := k, act := act, acc := 0, buf := [], pass2 := false, sval := sval, sbad := c.sPoison reads
    srcs := (c.spl.prog.map Progress.srcs).getD []
    fresh := ds.filter fun d => last.contains d.1
    mm := (c.spl.prog.map Progress.mm).getD 0
    sdests := []
    sreads := reads
    dsts := (ds.filter fun d => !last.contains d.1).map Prod.fst
    last := last
    op := none
    ord := c.spl.prog.bind Progress.ord }

/-- A walk whose lanes have all left ends: what it was to free is freed (R21 item 5). -/
def Issuer.endEmpty (c : Issuer) (s : State) : State :=
  c.finish (s.modGroup c.tid c.gid fun g => g.freeNames ((c.spl.prog.map Progress.last).getD []))

/-- The common start of a kind-F lane word: FMT fields (R26), waits at issue (R18, R21 item 4, R82), no active lane (R14), registers
(R22). One that continues does not issue again (R283). -/
def laneStart (legal : Fmt → Bool) (dsts sreads sdsts : List Nat) (s : State) (go : Issuer → State) : Res :=
  withIssuer s fun c =>
    if c.spl.prog.isSome then (if c.active = 0 then c.endEmpty s else go c)
    else if !legal c.fmt then c.raise .illegal s
    else if dsts.any c.grp.vBusy || sreads.any c.grp.sComing || sdsts.any (fun n => c.grp.sBusy n || c.grp.sHeld n) then c.stall s
    else if c.active = 0 then c.finish s
    else match s.alloc c.team c.grp (c.needs dsts) (c.needs dsts).length with
      | .illegal => c.raise .illegal s
      | .wait => c.retry (.regs (c.needs dsts).length) s
      | .ok => go c

/-- Write the destinations of a walk and go on, or stop at a lane. -/
def Issuer.endWalk (c : Issuer) (stop : Option LaneStop) (last : List Nat) (ds : List (Nat × VReg)) (p : Nat → Progress) (s : State) : State :=
  match stop with
  | none => c.finish (s.modGroup c.tid c.gid fun g => g.finishMap last ds)
  | some x =>
    let s := s.modGroup c.tid c.gid fun g => g.stopMap last ds
    match x with
    | .fault k => c.raiseAt .ecc k 0 (p k) s
    | .pause k => c.pause (p k) s

/-- One pass, kind F: in each active lane k the destinations take the words of f, computed from the sources of lane k. -/
def laneF (legal : Fmt → Bool) (srcs last dsts : List Nat) (f : Issuer → Nat → (Nat → Word) → List Word) (s : State) : Res :=
  laneStart legal dsts [] [] s fun c =>
    let todo := fromLane c.active c.from
    let stop := stopAt c.cutAt todo (c.badLanes srcs)
    let done := doneLanes todo stop
    let out (k : Nat) : List Word := f c k fun n => (c.src n).lane k
    let ds := dsts.mapIdx fun i n => (n, (c.dest last n).write done fun k => (out k).getD i 0)
    c.endWalk stop last ds (fun k => c.progress k c.active last ds [] 0) s

/-- One pass into a predicate (R97, R98). -/
def laneP (legal : Fmt → Bool) (srcs last : List Nat) (pd : Nat) (cmb : Nat) (f : Issuer → Nat → (Nat → Word) → Bool)
    (s : State) : Res :=
  laneStart legal [] [] [] s fun c =>
    let todo := fromLane c.active c.from
    let stop := stopAt c.cutAt todo (c.badLanes srcs)
    let done := doneLanes todo stop
    let old := c.grp.pred pd
    let new : Mask := Mask.ofLanes (done.lanes.filter fun k => combine cmb (old.has k) (f c k fun n => (c.src n).lane k))
    let s := s.modGroup c.tid c.gid fun g => g.setPred pd (old &&& ~~~done ||| new)
    c.endWalk stop last [] (fun k => c.progress k c.active last [] [] 0) s

/-- Run a value down the lanes: what each lane puts out, and the value at the end. -/
def runLanes (step : Word → Word → Word × Word) (x : Nat → Word) : List Nat → Word → List (Nat × Word) × Word
  | [], acc => ([], acc)
  | k :: ks, acc =>
    let (o, a) := step acc (x k)
    let (os, e) := runLanes step x ks a
    ((k, o) :: os, e)

/-- The value a list gives lane k. -/
def laneOut (os : List (Nat × Word)) (k : Nat) : Word := ((os.find? fun o => o.1 == k).map Prod.snd).getD 0

/-- Poison of an s register that a word reads at issue: its first lane meets it (R79). -/
def Issuer.sBad (c : Issuer) (sr : Nat) (todo : Mask) : Mask := if c.sPoison [sr] then todo else 0

/-- A running value down the active lanes, carry-in S(sr) (R99, R100): each lane puts out what step says; without a destination the final
value goes to S(sr) after the last lane. A poisoned lane of a is met at that lane (log entry 63). -/
def laneScan (legal : Fmt → Bool) (a : Nat) (last : List Nat) (sr : Nat) (dst : Option Nat)
    (step : Issuer → Word → Word → Word × Word) (s : State) : Res :=
  let sdsts := if dst.isSome then [] else [sr]
  laneStart legal dst.toList [sr] sdsts s fun c =>
    let todo := fromLane c.active c.from
    let carry : Word := match c.spl.prog with | some p => p.acc | none => c.grp.sreg sr
    let stop := stopAt c.cutAt todo (c.badLanes [a] ||| c.sBad sr todo)
    let done := doneLanes todo stop
    let (os, acc) := runLanes (step c) (fun k => (c.src a).lane k) done.lanes carry
    let ds := dst.toList.map fun n => (n, (c.dest last n).write done (laneOut os))
    let s := if stop.isNone && dst.isNone then s.modGroup c.tid c.gid fun g => g.setS sr acc else s
    c.endWalk stop last ds (fun k => { c.progress k c.active last ds [sr] 0 with acc := acc, sdests := sdsts }) s

/-- The value of lane j of a source of a two-pass word: from the first-pass buffer below the stop (R105), else as it is read. -/
def Issuer.buffered (c : Issuer) (i n j : Nat) : Word :=
  match c.spl.prog with
  | some p => if p.pass2 || j < p.lane then p.buf.getD (32 * i + j) 0 else (c.src n).lane j
  | none => (c.src n).lane j

/-- A first-pass buffer: 32 words for each source. -/
def Issuer.buffer (c : Issuer) (srcs : List Nat) : List Word :=
  (srcs.mapIdx fun i n => (List.range 32).map fun j => c.buffered i n j).flatten

/-- Two passes over the lanes of act (R81, R100 to R103): the first reads them, the second writes those for which f gives a value; then `fin`
happens. The s operand is read before. -/
def Issuer.twoPass (c : Issuer) (act : Mask) (srcs last : List Nat) (dst : Nat) (reads : List Nat) (sval : Word) (sdsts : List Nat)
    (f : (Nat → Nat → Word) → Nat → Option Word) (fin : (Nat → Nat → Word) → State → State) (p : Progress → Progress) (s : State) : State :=
  let second := c.spl.prog.any Progress.pass2
  let val (i j : Nat) : Word := c.buffered i (srcs.getD i 0) j
  let kept (k : Nat) (ds : List (Nat × VReg)) (pass2 : Bool) : Progress :=
    p { c.progress k act last ds reads (pair 0 sval) with buf := c.buffer srcs, pass2 := pass2, sdests := sdsts }
  match if second then none else stopAt (fun k => c.cutAt k && c.cut.all (· < 32)) (fromLane act c.from) (c.badLanes srcs ||| if c.sPoison reads then act else 0) with
  | some x =>
    let ds := [(dst, c.dest last dst)]
    c.endWalk (some x) last ds (fun k => kept k ds false) s
  | none =>
    let todo := if second then fromLane act c.from else act
    let stop := stopAt c.cutAt2 todo 0
    let done := doneLanes todo stop
    let ds := [(dst, (c.dest last dst).write (Mask.ofLanes (done.lanes.filter fun k => (f val k).isSome)) fun k => (f val k).getD 0)]
    let s := if stop.isNone then fin val s else s
    c.endWalk stop last ds (fun k => kept k ds true) s

/-- The s operand of a word that reads it at issue (R79 item 2). -/
def Issuer.sword (c : Issuer) (sr : Nat) : Word := match c.spl.prog with
  | some p => loWord p.sval
  | none => c.grp.sreg sr

/-- A two-pass word of the issuing split; `sres` may give a word for S(sr) after the last lane. -/
def lane2 (srcs last : List Nat) (dst : Nat) (sr : Nat) (sread : Bool) (f : Mask → Word → (Nat → Nat → Word) → Nat → Option Word)
    (sres : Option (Mask → (Nat → Nat → Word) → Word)) (s : State) : Res :=
  let sdsts := if sres.isSome then [sr] else []
  laneStart Fmt.any [dst] (if sread then [sr] else []) sdsts s fun c =>
    let act := c.active
    c.twoPass act srcs last dst (if sread then [sr] else []) (c.sword sr) sdsts (f act (c.sword sr))
      (fun val s => match sres with
        | some r => s.modGroup c.tid c.gid fun g => g.setS sr (r act val)
        | none => s) id s

/-- A function unit or the divider (R81, R94): kind L; each active lane's result is computed from the sources as they stand and
written when the unit delivers it. -/
def laneL (legal : Fmt → Bool) (srcs last : List Nat) (d : Nat) (f : Issuer → (Nat → Word) → Word) (s : State) : Res :=
  withIssuer s fun c =>
    if c.spl.prog.isNone && !legal c.fmt then c.raise .illegal s
    else if c.active = 0 then c.endEmpty s
    else match if c.spl.prog.isSome then Alloc.ok else s.alloc c.team c.grp [d] 1 with
      | .illegal => c.raise .illegal s
      | .wait => c.retry (.regs 1) s
      | .ok =>
        let todo := fromLane c.active c.from
        let stop := stopAt c.cutAt todo (c.badLanes srcs)
        let res := (doneLanes todo stop).lanes.map fun k => (k, [f c fun n => (c.src n).lane k])
        let id := ((c.spl.prog.bind Progress.op)).getD c.grp.nextOp
        let s := s.modGroup c.tid c.gid fun g =>
          match c.spl.prog.bind Progress.op with
          | some id => g.modOp id fun o => { o with res := o.res ++ res }
          | none => g.push { c.lop .unit with dests := [d], nv := [VReg.zero], res := res }
        c.endWalk stop last [] (fun k => { c.progress k c.active last [] [] 0 with op := some id }) s

end Sys2Proof.Machine
end

