-- ==== Sys2Proof/Machine/LaneInt.lean ====
section
/-! DEFINITION. The integer, logical and bit-moving lane words (R83 to R86, R89, R90, R92, R93). -/
namespace Sys2Proof.Machine

/-- The names that last-read bits free (R70). -/
def last1 (a : BitVec 6) (la : Bool) : List Nat := if la then [a.toNat] else []
def last2 (a b : BitVec 6) (la lb : Bool) : List Nat := last1 a la ++ last1 b lb

/-- A word of two sources without FMT: V(d)[k] := f (V(a)[k]) (V(b)[k]). -/
def laneTwo (d a b : BitVec 6) (la lb : Bool) (f : Word → Word → Word) (s : State) : Res :=
  laneF Fmt.any [a.toNat, b.toNat] (last2 a b la lb) [d.toNat] (fun _ _ v => [f (v a.toNat) (v b.toNat)]) s

/-- A word of one source without FMT: V(d)[k] := f (V(a)[k]). -/
def laneOne (d a : BitVec 6) (la : Bool) (f : Word → Word) (s : State) : Res :=
  laneF Fmt.any [a.toNat] (last1 a la) [d.toNat] (fun _ _ v => [f (v a.toNat)]) s

/-- A word whose source is its destination: V(d)[k] := f (V(d)[k]). -/
def laneSelf (d : BitVec 6) (f : Word → Word) (s : State) : Res :=
  laneF Fmt.any [d.toNat] [] [d.toNat] (fun _ _ v => [f (v d.toNat)]) s

/-- A word of three sources, the third its destination. -/
def laneThree (d a b : BitVec 6) (la lb : Bool) (f : Word → Word → Word → Word) (s : State) : Res :=
  laneF Fmt.any [a.toNat, b.toNat, d.toNat] (last2 a b la lb) [d.toNat]
    (fun _ _ v => [f (v a.toNat) (v b.toNat) (v d.toNat)]) s

/-- R83. -/
def execIadd (d a b : BitVec 6) (la lb x : Bool) (s : State) : Res :=
  laneTwo d a b la lb (fun u v => if x then clampS (u.toInt + v.toInt) else u + v) s
/-- R83. -/
def execIsub (d a b : BitVec 6) (la lb x : Bool) (s : State) : Res :=
  laneTwo d a b la lb (fun u v => if x then clampS (u.toInt - v.toInt) else u - v) s
/-- R83. -/
def execImul (d a b : BitVec 6) (la lb x : Bool) (s : State) : Res :=
  laneTwo d a b la lb (fun u v => if x then mulHiS u v else u * v) s
/-- R83. -/
def execImuln (d a b : BitVec 6) (la lb x : Bool) (s : State) : Res :=
  laneTwo d a b la lb (fun u v => if x then mulHiU u v else u * v) s
/-- R83. -/
def execImin (d a b : BitVec 6) (la lb x : Bool) (s : State) : Res :=
  laneTwo d a b la lb (fun u v => if x then (if v.ult u then v else u) else (if v.slt u then v else u)) s
/-- R83. -/
def execImax (d a b : BitVec 6) (la lb x : Bool) (s : State) : Res :=
  laneTwo d a b la lb (fun u v => if x then (if u.ult v then v else u) else (if u.slt v then v else u)) s
/-- R83. -/
def execAnd (d a b : BitVec 6) (la lb : Bool) (s : State) : Res := laneTwo d a b la lb (fun u v => u &&& v) s
/-- R83. -/
def execOr (d a b : BitVec 6) (la lb : Bool) (s : State) : Res := laneTwo d a b la lb (fun u v => u ||| v) s
/-- R83. -/
def execXor (d a b : BitVec 6) (la lb : Bool) (s : State) : Res := laneTwo d a b la lb (fun u v => u ^^^ v) s
/-- R83. -/
def execAndn (d a b : BitVec 6) (la lb : Bool) (s : State) : Res := laneTwo d a b la lb (fun u v => u &&& ~~~v) s
/-- R83. -/
def execShl (d a b : BitVec 6) (la lb : Bool) (s : State) : Res := laneTwo d a b la lb (fun u v => shl u v.toNat) s
/-- R83. -/
def execShr (d a b : BitVec 6) (la lb x : Bool) (s : State) : Res :=
  laneTwo d a b la lb (fun u v => if x then sar u v.toNat else shr u v.toNat) s
/-- R83. -/
def execRot (d a b : BitVec 6) (la lb : Bool) (s : State) : Res :=
  laneTwo d a b la lb (fun u v => u.rotateLeft (fld v.toNat 0 5)) s
/-- R83, R84. -/
def execBfx (d a b : BitVec 6) (la lb x : Bool) (s : State) : Res := laneTwo d a b la lb (fun u v => bfx x u v) s
/-- R88: PACK2 moves bits and reads no FMT field. -/
def execPack2 (d a b : BitVec 6) (la lb x : Bool) (s : State) : Res :=
  laneTwo d a b la lb (fun u v => halves (half v x.toNat) (half u x.toNat)) s

/-- Both registers of a pair that a last-read bit frees (R85). -/
def lastPair (a : BitVec 6) (la : Bool) : List Nat := if la then [a.toNat, a.toNat + 1] else []

/-- R85: 64-bit sum of pairs, or of a pair and one sign-extended register. -/
def execIadd64 (d a b : BitVec 6) (la lb x : Bool) (s : State) : Res :=
  let bs := if x then [b.toNat] else [b.toNat, b.toNat + 1]
  laneF Fmt.any ([a.toNat, a.toNat + 1] ++ bs) (lastPair a la ++ if x then last1 b lb else lastPair b lb)
    [d.toNat, d.toNat + 1]
    (fun _ _ v =>
      let t := pairOf v a.toNat + (if x then (v b.toNat).signExtend 64 else pairOf v b.toNat)
      [loWord t, hiWord t]) s
/-- R85. -/
def execIsub64 (d a b : BitVec 6) (la lb : Bool) (s : State) : Res :=
  laneF Fmt.any [a.toNat, a.toNat + 1, b.toNat, b.toNat + 1] (lastPair a la ++ lastPair b lb) [d.toNat, d.toNat + 1]
    (fun _ _ v =>
      let t := pairOf v a.toNat - pairOf v b.toNat
      [loWord t, hiWord t]) s

/-- R86, kind L. -/
def execIdivn (d a b : BitVec 6) (la lb x : Bool) (s : State) : Res :=
  laneL Fmt.any [a.toNat, b.toNat] (last2 a b la lb) d.toNat
    (fun _ v =>
      let u := v a.toNat
      let w := v b.toNat
      if w = 0 then (if x then u else 0xFFFFFFFF#32) else if x then u % w else u / w) s

/-- R89: d is not read. -/
def execMovi (d : BitVec 6) (imm : BitVec 16) (s : State) : Res :=
  laneF Fmt.any [] [] [d.toNat] (fun _ _ _ => [sext16 imm]) s
/-- R89. -/
def execMovhi (d : BitVec 6) (imm : BitVec 16) (s : State) : Res :=
  laneSelf d (fun x => halves imm.toNat (half x 0)) s
/-- R89. -/
def execIaddi (d : BitVec 6) (imm : BitVec 16) (s : State) : Res := laneSelf d (fun x => x + sext16 imm) s
/-- R89. -/
def execImuli (d : BitVec 6) (imm : BitVec 16) (s : State) : Res := laneSelf d (fun x => x * sext16 imm) s
/-- R89. -/
def execAndi (d : BitVec 6) (imm : BitVec 16) (s : State) : Res := laneSelf d (fun x => x &&& zext16 imm) s
/-- R89. -/
def execOri (d : BitVec 6) (imm : BitVec 16) (s : State) : Res := laneSelf d (fun x => x ||| zext16 imm) s
/-- R89. -/
def execXori (d : BitVec 6) (imm : BitVec 16) (s : State) : Res := laneSelf d (fun x => x ^^^ zext16 imm) s
/-- R89. -/
def execShli (d : BitVec 6) (imm : BitVec 5) (s : State) : Res := laneSelf d (fun x => shl x imm.toNat) s
/-- R89. -/
def execShri (d : BitVec 6) (imm : BitVec 5) (s : State) : Res := laneSelf d (fun x => shr x imm.toNat) s
/-- R89. -/
def execShrai (d : BitVec 6) (imm : BitVec 5) (s : State) : Res := laneSelf d (fun x => sar x imm.toNat) s
/-- R89: bits copied, d not read. -/
def execHmovi2 (d : BitVec 6) (imm : BitVec 16) (s : State) : Res :=
  laneF Fmt.any [] [] [d.toNat] (fun _ _ _ => [halves imm.toNat imm.toNat]) s
/-- R89: bytes {e1, e0, e1, e0}, d not read. -/
def execQmovi4 (d : BitVec 6) (imm : BitVec 16) (s : State) : Res :=
  laneF Fmt.any [] [] [d.toNat] (fun _ _ _ => [halves imm.toNat imm.toNat]) s

/-- R90: d is the addend. -/
def execImad (d a b : BitVec 6) (la lb h : Bool) (s : State) : Res :=
  laneThree d a b la lb (fun x y z => (if h then mulHiS x y else x * y) + z) s
/-- R90: the 64-bit accumulation. -/
def execImadw (d a b : BitVec 6) (la lb : Bool) (s : State) : Res :=
  laneF Fmt.any [a.toNat, b.toNat, d.toNat, d.toNat + 1] (last2 a b la lb) [d.toNat, d.toNat + 1]
    (fun _ _ v =>
      let t := pairOf v d.toNat + (v a.toNat).signExtend 64 * (v b.toNat).signExtend 64
      [loWord t, hiWord t]) s
/-- R92, R84. -/
def execBfi (d a b : BitVec 6) (la lb : Bool) (s : State) : Res := laneThree d a b la lb (fun x y z => bfi x y z) s

/-- Byte i of PERMB's result (R92). -/
def permByte (x y z : Word) (i : Nat) : Nat :=
  let n := nibble z i
  if n < 4 then byteOf x n else if n < 8 then byteOf y (n - 4) else 0

/-- R92. -/
def execPermb (d a b : BitVec 6) (la lb : Bool) (s : State) : Res :=
  laneThree d a b la lb (fun x y z =>
    halves (permByte x y z 3 * 256 + permByte x y z 2) (permByte x y z 1 * 256 + permByte x y z 0)) s
/-- R92: the predicate selects; d is not read. -/
def execSel (d a b : BitVec 6) (la lb : Bool) (p : BitVec 3) (s : State) : Res :=
  laneF Fmt.any [a.toNat, b.toNat] (last2 a b la lb) [d.toNat]
    (fun c k v => [if (c.grp.pred p.toNat).has k then v a.toNat else v b.toNat]) s

/-- R93. -/
def execMov (d a : BitVec 6) (la : Bool) (s : State) : Res := laneOne d a la (fun x => x) s
/-- R93. -/
def execIneg (d a : BitVec 6) (la : Bool) (s : State) : Res := laneOne d a la (fun x => 0 - x) s
/-- R93. -/
def execNot (d a : BitVec 6) (la : Bool) (s : State) : Res := laneOne d a la (fun x => ~~~x) s
/-- R93. -/
def execPopc (d a : BitVec 6) (la : Bool) (s : State) : Res := laneOne d a la (fun x => BitVec.ofNat 32 (popc x)) s
/-- R93. -/
def execClz (d a : BitVec 6) (la : Bool) (s : State) : Res := laneOne d a la (fun x => BitVec.ofNat 32 (clz x)) s
/-- R93. -/
def execBrev (d a : BitVec 6) (la : Bool) (s : State) : Res := laneOne d a la brev s
/-- R96. -/
def execFclass (d a : BitVec 6) (la : Bool) (s : State) : Res :=
  laneOne d a la (fun x => BitVec.ofNat 32 (fclass x.toNat)) s
/-- R96. -/
def execLaneid (d : BitVec 6) (s : State) : Res := laneF Fmt.any [] [] [d.toNat] (fun _ k _ => [BitVec.ofNat 32 k]) s

end Sys2Proof.Machine
end

