-- ==== Sys2Proof/Machine/LaneFloat.lean ====
section
/-! DEFINITION. The floating-point lane words: FP32, packed half, dot products, functions, conversions (R53, R87 to R96). -/
namespace Sys2Proof.Machine

/-- A float word of two sources: V(d)[k] := f FMT (V(a)[k]) (V(b)[k]). -/
def floatTwo (legal : Fmt → Bool) (d a b : BitVec 6) (la lb : Bool) (f : Fmt → Word → Word → Word) (s : State) : Res :=
  laneF legal [a.toNat, b.toNat] (last2 a b la lb) [d.toNat] (fun c _ v => [f c.fmt (v a.toNat) (v b.toNat)]) s

/-- A float word of three sources, the third its destination. -/
def floatThree (legal : Fmt → Bool) (d a b : BitVec 6) (la lb : Bool) (f : Fmt → Word → Word → Word → Word) (s : State) : Res :=
  laneF legal [a.toNat, b.toNat, d.toNat] (last2 a b la lb) [d.toNat]
    (fun c _ v => [f c.fmt (v a.toNat) (v b.toNat) (v d.toNat)]) s

/-- A float word of one source. -/
def floatOne (legal : Fmt → Bool) (d a : BitVec 6) (la : Bool) (f : Fmt → Word → Word) (s : State) : Res :=
  laneF legal [a.toNat] (last1 a la) [d.toNat] (fun c _ v => [f c.fmt (v a.toNat)]) s

/-- A float word whose source is its destination. -/
def floatSelf (legal : Fmt → Bool) (d : BitVec 6) (f : Fmt → Word → Word) (s : State) : Res :=
  laneF legal [d.toNat] [] [d.toNat] (fun c _ v => [f c.fmt (v d.toNat)]) s

/-- FP32 sum, difference, product, quotient under FMT (R46 to R48, R87). -/
def fAdd (f : Fmt) (x y : Word) : Word := f.round32 f.rm (FV.add f.rm (f32 x) (f32 y))
def fSub (f : Fmt) (x y : Word) : Word := f.round32 f.rm (FV.add f.rm (f32 x) (f32 y).neg)
def fMul (f : Fmt) (x y : Word) : Word := f.round32 f.rm (FV.mul (f32 x) (f32 y))
def fDiv (f : Fmt) (x y : Word) : Word := BitVec.ofNat 32 (flush f.ftz (fp32.div f.rm (f32 x) (f32 y)))
/-- FP32 minimum and maximum (R49 item 4, R48). -/
def fMinMax (f : Fmt) (isMax prop : Bool) (x y : Word) : Word :=
  BitVec.ofNat 32 (flush f.ftz (fp32.minmax isMax prop x.toNat y.toNat))
/-- x × y + z with one rounding (R47). -/
def fFma (f : Fmt) (rm : Nat) (x y z : FV) : Word := f.round32 rm (FV.add rm (FV.mul x y) z)

/-- R87. -/
def execFadd (d a b : BitVec 6) (la lb : Bool) (s : State) : Res := floatTwo Fmt.rmOk d a b la lb fAdd s
/-- R87. -/
def execFsub (d a b : BitVec 6) (la lb : Bool) (s : State) : Res := floatTwo Fmt.rmOk d a b la lb fSub s
/-- R87. -/
def execFmul (d a b : BitVec 6) (la lb : Bool) (s : State) : Res := floatTwo Fmt.rmOk d a b la lb fMul s
/-- R87. -/
def execFmin (d a b : BitVec 6) (la lb x : Bool) (s : State) : Res :=
  floatTwo Fmt.any d a b la lb (fun f => fMinMax f false x) s
/-- R87. -/
def execFmax (d a b : BitVec 6) (la lb x : Bool) (s : State) : Res :=
  floatTwo Fmt.any d a b la lb (fun f => fMinMax f true x) s
/-- R87, kind L. -/
def execFdiv (d a b : BitVec 6) (la lb : Bool) (s : State) : Res :=
  laneL Fmt.rmOk [a.toNat, b.toNat] (last2 a b la lb) d.toNat (fun c v => fDiv c.fmt (v a.toNat) (v b.toNat)) s

/-- Half sums, products and fused multiply-adds of one element (R47, R88). -/
def hAdd (f : Fmt) (x y : Nat) : Nat := f.half.enc f.rm (FV.add f.rm (f.half.dec x) (f.half.dec y))
def hSub (f : Fmt) (x y : Nat) : Nat := f.half.enc f.rm (FV.add f.rm (f.half.dec x) (f.half.dec y).neg)
def hMul (f : Fmt) (x y : Nat) : Nat := f.half.enc f.rm (FV.mul (f.half.dec x) (f.half.dec y))
def hFma (f : Fmt) (x y z : Nat) : Nat :=
  f.half.enc f.rm (FV.add f.rm (FV.mul (f.half.dec x) (f.half.dec y)) (f.half.dec z))

/-- R88. -/
def execHadd2 (d a b : BitVec 6) (la lb : Bool) (s : State) : Res :=
  floatTwo Fmt.rmOk d a b la lb (fun f => eachHalf (hAdd f)) s
/-- R88. -/
def execHsub2 (d a b : BitVec 6) (la lb : Bool) (s : State) : Res :=
  floatTwo Fmt.rmOk d a b la lb (fun f => eachHalf (hSub f)) s
/-- R88. -/
def execHmul2 (d a b : BitVec 6) (la lb : Bool) (s : State) : Res :=
  floatTwo Fmt.rmOk d a b la lb (fun f => eachHalf (hMul f)) s
/-- R88. -/
def execHmin2 (d a b : BitVec 6) (la lb : Bool) (s : State) : Res :=
  floatTwo Fmt.any d a b la lb (fun f => eachHalf (f.half.minmax false false)) s
/-- R88. -/
def execHmax2 (d a b : BitVec 6) (la lb : Bool) (s : State) : Res :=
  floatTwo Fmt.any d a b la lb (fun f => eachHalf (f.half.minmax true false)) s

/-- R89, R52. -/
def execFaddi (d : BitVec 6) (imm : BitVec 16) (s : State) : Res :=
  floatSelf Fmt.rmOk d (fun f x => f.round32 f.rm (FV.add f.rm (f32 x) (bf16Imm imm))) s
/-- R89. -/
def execFmuli (d : BitVec 6) (imm : BitVec 16) (s : State) : Res :=
  floatSelf Fmt.rmOk d (fun f x => f.round32 f.rm (FV.mul (f32 x) (bf16Imm imm))) s
/-- R89: d is not read. -/
def execFmovi (d : BitVec 6) (imm : BitVec 16) (s : State) : Res :=
  laneF Fmt.any [] [] [d.toNat] (fun c _ _ => [c.fmt.round32 0 (bf16Imm imm)]) s
/-- R89. -/
def execHadd2i (d : BitVec 6) (imm : BitVec 16) (s : State) : Res :=
  floatSelf Fmt.rmOk d (fun f x => eachHalf (hAdd f) x (halves imm.toNat imm.toNat)) s
/-- R89. -/
def execHmul2i (d : BitVec 6) (imm : BitVec 16) (s : State) : Res :=
  floatSelf Fmt.rmOk d (fun f x => eachHalf (hMul f) x (halves imm.toNat imm.toNat)) s
/-- A BF16 immediate as an FP32 code (R52). -/
def bf16Word (imm : BitVec 16) : Word := BitVec.ofNat 32 (fp32.enc 0 (bf16Imm imm))
/-- R89. -/
def execFmini (d : BitVec 6) (imm : BitVec 16) (s : State) : Res :=
  floatSelf Fmt.any d (fun f x => fMinMax f false false x (bf16Word imm)) s
/-- R89. -/
def execFmaxi (d : BitVec 6) (imm : BitVec 16) (s : State) : Res :=
  floatSelf Fmt.any d (fun f x => fMinMax f true false x (bf16Word imm)) s

/-- The rounding mode of FFMA and FNMA (R90): FMT.rm for 0, else mode m3 − 1. -/
def fmaMode (f : Fmt) (m3 : BitVec 3) : Nat := if m3 = 0 then f.rm else m3.toNat - 1
/-- An override does not use FMT.rm (R79 item 3). -/
def fmaLegal (m3 : BitVec 3) (f : Fmt) : Bool := m3 != 0 || f.rmOk
/-- R90. -/
def execFfma (d a b : BitVec 6) (la lb : Bool) (r : BitVec 3) (s : State) : Res :=
  floatThree (fmaLegal r) d a b la lb (fun f x y z => fFma f (fmaMode f r) (f32 x) (f32 y) (f32 z)) s
/-- R90. -/
def execFnma (d a b : BitVec 6) (la lb : Bool) (r : BitVec 3) (s : State) : Res :=
  floatThree (fmaLegal r) d a b la lb (fun f x y z => fFma f (fmaMode f r) (f32 x).neg (f32 y) (f32 z)) s
/-- R90. -/
def execHfma2 (d a b : BitVec 6) (la lb : Bool) (s : State) : Res :=
  floatThree Fmt.rmOk d a b la lb (fun f x y z =>
    halves (hFma f (half x 1) (half y 1) (half z 1)) (hFma f (half x 0) (half y 0) (half z 0))) s
/-- R92. -/
def execFclamp (d a b : BitVec 6) (la lb : Bool) (s : State) : Res :=
  floatThree Fmt.any d a b la lb (fun f x y z => BitVec.ofNat 32 (flush f.ftz
    (fp32.minmax false true (fp32.minmax true true z.toNat x.toNat) y.toNat))) s

/-- The float dot product of R53: products exact, sum exact, one rounding. -/
def dotFloat (f : Fmt) (n : Nat) (el : Word → Nat → FV) (x y z : Word) : Word :=
  f.round32 f.rm (FV.sum f.rm (f32 z :: (List.range n).map fun i => FV.mul (el x i) (el y i)))
/-- The integer dot product of R53. -/
def dotInt (n : Nat) (el : Word → Nat → Int) (x y z : Word) : Word :=
  z + BitVec.ofInt 32 (((List.range n).map fun i => el x i * el y i).foldl (· + ·) 0)

/-- R53, R91. -/
def execDot4 (d a b : BitVec 6) (la lb : Bool) (s : State) : Res :=
  floatThree (fun f => f.float8.isNone || f.rmOk) d a b la lb
    (fun f x y z => if f.float8.isSome then dotFloat f 4 (fun w i => f.elem8 (byteOf w i)) x y z
      else dotInt 4 (fun w i => f.int8 (byteOf w i)) x y z) s
/-- R53, R91. -/
def execDot8 (d a b : BitVec 6) (la lb : Bool) (s : State) : Res :=
  floatThree (fun f => f.q4Ok && (f.q4 != 0 || f.rmOk)) d a b la lb
    (fun f x y z => if f.q4 = 0 then dotFloat f 8 (fun w i => f.elem4 (nibble w i)) x y z
      else dotInt 8 (fun w i => f.int4 (nibble w i)) x y z) s
/-- R53, R91. -/
def execDot2h (d a b : BitVec 6) (la lb : Bool) (s : State) : Res :=
  floatThree Fmt.rmOk d a b la lb (fun f => dotFloat f 2 fun w i => f.half.dec (half w i)) s

/-- A sign operation that gives the default NaN for a NaN (R93). -/
def fSign (f : Fmt) (x y : Word) : Word := BitVec.ofNat 32 (flush f.ftz (if fp32.isNaN x.toNat then fp32.nan else y.toNat))
/-- R93. -/
def execFabs (d a : BitVec 6) (la : Bool) (s : State) : Res :=
  floatOne Fmt.any d a la (fun f x => fSign f x (x &&& 0x7FFFFFFF#32)) s
/-- R93. -/
def execFneg (d a : BitVec 6) (la : Bool) (s : State) : Res :=
  floatOne Fmt.any d a la (fun f x => fSign f x (x ^^^ 0x80000000#32)) s

/-- A function-unit word (R94): kind L, FMT.ftz applied to the result. -/
def functionUnit (legal : Fmt → Bool) (d a : BitVec 6) (la : Bool) (g : Fmt → Word → Nat) (s : State) : Res :=
  laneL legal [a.toNat] (last1 a la) d.toNat
    (fun c v => BitVec.ofNat 32 (flush c.fmt.ftz (g c.fmt (v a.toNat)))) s
/-- R94. -/
def execFrcp (d a : BitVec 6) (la : Bool) (s : State) : Res :=
  functionUnit Fmt.rmOk d a la (fun f x => fp32.div f.rm (.fin false 1 0) (f32 x)) s
/-- R94. -/
def execFrsq (d a : BitVec 6) (la : Bool) (s : State) : Res :=
  functionUnit Fmt.any d a la (fun _ x => frsq (Config.rsqBits x).toNat (f32 x)) s
/-- R94. -/
def execFsqrt (d a : BitVec 6) (la : Bool) (s : State) : Res :=
  functionUnit Fmt.rmOk d a la (fun f x => fp32.sqrt f.rm (f32 x)) s
/-- R94. -/
def execFexp2 (d a : BitVec 6) (la : Bool) (s : State) : Res :=
  functionUnit Fmt.any d a la (fun _ x => fexp2 (Config.exp2Bits x).toNat (f32 x)) s
/-- R94. -/
def execFlog2 (d a : BitVec 6) (la : Bool) (s : State) : Res :=
  functionUnit Fmt.any d a la (fun _ x => flog2 (Config.log2Bits x).toNat (f32 x)) s
/-- R94. -/
def execFsin (d a : BitVec 6) (la : Bool) (s : State) : Res :=
  functionUnit Fmt.any d a la (fun _ x => fsincos false (Config.sinBits x).toNat (f32 x)) s
/-- R94. -/
def execFcos (d a : BitVec 6) (la : Bool) (s : State) : Res :=
  functionUnit Fmt.any d a la (fun _ x => fsincos true (Config.cosBits x).toNat (f32 x)) s
/-- R94. -/
def execFtanh (d a : BitVec 6) (la : Bool) (s : State) : Res :=
  functionUnit Fmt.any d a la (fun _ x => ftanh (Config.tanhBits x).toNat (f32 x)) s

/-- R95, R51. -/
def execFtoi (d a : BitVec 6) (la : Bool) (s : State) : Res :=
  floatOne Fmt.rmOk d a la (fun f x => BitVec.ofInt 32 (FV.clampInt f.rm (-2147483648) 2147483647 (f32 x))) s
/-- R95, R51. -/
def execItof (d a : BitVec 6) (la : Bool) (s : State) : Res :=
  floatOne Fmt.rmOk d a la (fun f x => f.round32 f.rm (FV.ofInt x.toInt)) s

/-- A conversion that writes part of d and keeps the rest (R95). -/
def convertInto (legal : Fmt → Bool) (d a : BitVec 6) (la : Bool) (lo n : Nat) (g : Fmt → Word → Nat) (s : State) : Res :=
  laneF legal [a.toNat, d.toNat] (last1 a la) [d.toNat]
    (fun c _ v => [putField (v d.toNat) lo n (g c.fmt (v a.toNat))]) s
/-- R95, R51. -/
def execFcvt (d a : BitVec 6) (la h : Bool) (s : State) : Res :=
  convertInto Fmt.rmOk d a la (16 * h.toNat) 16 (fun f x => f.half.enc f.rm (f32 x)) s
/-- R95, R51: exact, R48 applies. -/
def execHcvt (d a : BitVec 6) (la h : Bool) (s : State) : Res :=
  floatOne Fmt.any d a la (fun f x => f.round32 0 (f.half.dec (half x h.toNat))) s
/-- The 8-bit code of FMT.q8 for an exact value (R50, R51). -/
def Fmt.to8 (f : Fmt) (x : FV) : Nat :=
  match f.float8 with
  | some g => g.convert f.sat x
  | none => ((if f.q8 = 2 then FV.clampInt 0 (-128) 127 x else FV.clampInt 0 0 255 x) % 256).toNat
/-- The 4-bit code of FMT.q4 for an exact value (R50, R51). -/
def Fmt.to4 (f : Fmt) (x : FV) : Nat :=
  if f.q4 = 0 then e2m1.convert f.sat x
  else ((if f.q4 = 1 then FV.clampInt 0 (-8) 7 x else FV.clampInt 0 0 15 x) % 16).toNat
/-- R95, R50. -/
def execQcvt (d a : BitVec 6) (la : Bool) (b : BitVec 2) (s : State) : Res :=
  convertInto Fmt.any d a la (8 * b.toNat) 8 (fun f x => f.to8 (f32 x)) s
/-- R95. -/
def execQunp (d a : BitVec 6) (la : Bool) (b : BitVec 2) (s : State) : Res :=
  floatOne Fmt.any d a la (fun f x => f.round32 0 (f.elem8 (byteOf x b.toNat))) s
/-- R95, R50. -/
def execQ4cvt (d a : BitVec 6) (la : Bool) (n : BitVec 3) (s : State) : Res :=
  convertInto Fmt.q4Ok d a la (4 * n.toNat) 4 (fun f x => f.to4 (f32 x)) s
/-- R95. -/
def execQ4unp (d a : BitVec 6) (la : Bool) (n : BitVec 3) (s : State) : Res :=
  floatOne Fmt.q4Ok d a la (fun f x => f.round32 0 (f.elem4 (nibble x n.toNat))) s

/-- The rounding mode of FRND's code (R96): floor, ceil, trunc, nearest even. -/
def frndMode (r : BitVec 2) : Nat := match r.toNat with | 0 => 3 | 1 => 2 | 2 => 1 | _ => 0
/-- R96. -/
def execFrnd (d a : BitVec 6) (la : Bool) (r : BitVec 2) (s : State) : Res :=
  floatOne Fmt.any d a la (fun f x => f.round32 0 (roundIntegral (frndMode r) (f32 x))) s

end Sys2Proof.Machine
end

