-- ==== Sys2Proof/Machine/LaneX.lean ====
section
/-! DEFINITION. Operations through time and across lanes (R99 to R102) and their member-masked forms (R103, R104). -/
namespace Sys2Proof.Machine

/-- combine(m3, acc, x) of R99. -/
def scanOp (f : Fmt) (k : Nat) (acc x : Word) : Word :=
  match k with
  | 0 => acc + x
  | 1 => fAdd f acc x
  | 2 => if acc.slt x then x else acc
  | 3 => if x.slt acc then x else acc
  | 4 => fMinMax f true false acc x
  | 5 => fMinMax f false false acc x
  | 6 => acc ||| x
  | _ => acc ^^^ x

/-- The float sum uses FMT.rm (R99). -/
def scanLegal (k : BitVec 3) (f : Fmt) : Bool := k != 1 || f.rmOk

/-- R99. -/
def execScan (d a r : BitVec 6) (la : Bool) (k : BitVec 3) (s : State) : Res :=
  laneScan (scanLegal k) a.toNat (last1 a la) r.toNat (some d.toNat)
    (fun c acc x => (scanOp c.fmt k.toNat acc x, scanOp c.fmt k.toNat acc x)) s
/-- R99: each lane takes the value before its own. -/
def execScanx (d a r : BitVec 6) (la : Bool) (k : BitVec 3) (s : State) : Res :=
  laneScan (scanLegal k) a.toNat (last1 a la) r.toNat (some d.toNat) (fun c acc x => (acc, scanOp c.fmt k.toNat acc x)) s
/-- R99: only S(s) is written, after the last lane. -/
def execReduce (a r : BitVec 6) (la : Bool) (k : BitVec 3) (s : State) : Res :=
  laneScan (scanLegal k) a.toNat (last1 a la) r.toNat none
    (fun c acc x => (scanOp c.fmt k.toNat acc x, scanOp c.fmt k.toNat acc x)) s
/-- R100. -/
def execPrevLane (d a r : BitVec 6) (la : Bool) (s : State) : Res :=
  laneScan Fmt.any a.toNat (last1 a la) r.toNat (some d.toNat) (fun _ acc x => (acc, x)) s

/-- The next active lane above k. -/
def nextActive (act : Mask) (k : Nat) : Option Nat := act.lanes.find? fun j => k < j
/-- R100. -/
def execNextLane (d a r : BitVec 6) (la : Bool) (s : State) : Res :=
  lane2 [a.toNat] (last1 a la) d.toNat r.toNat true
    (fun act sv v k => match nextActive act k with
      | some j => some (v 0 j)
      | none => some sv) none s

/-- The source lane of the shuffles (R101): SHUP, SHDN, BFLY, PERM, BCASTL. -/
inductive Shuffle where
  | up | down | fly | perm | bcast
deriving DecidableEq, Repr

def Shuffle.source (f : Shuffle) (k : Nat) (sv old : Word) : Option Nat :=
  let c := fld sv.toNat 0 5
  match f with
  | .up => if c ≤ k then some (k - c) else none
  | .down => if k + c < 32 then some (k + c) else none
  | .fly => some (k ^^^ c)
  | .perm => some (fld old.toNat 0 5)
  | .bcast => some c

/-- The value a lane of a shuffle takes, if its source lane is active (R101). -/
def Shuffle.value (f : Shuffle) (act : Mask) (sv : Word) (v : Nat → Nat → Word) (k : Nat) : Option Word :=
  match f.source k sv (v 1 k) with
  | some j => if act.has j then some (v 0 j) else none
  | none => none

/-- The one-pass shuffles, SHUP and BCASTL, over the lanes of act: the lane that reads a poisoned source lane meets ECC (R79); then `fin`
happens. In place, the words already overwritten are kept, and behind them their poison as the word found it. -/
def Issuer.onePass (c : Issuer) (f : Shuffle) (act : Mask) (d a r : BitVec 6) (la : Bool) (fin : State → State) (p : Progress → Progress)
    (s : State) : State :=
  let todo := fromLane act c.from
  let last := last1 a la
  let sval := c.sword r.toNat
  let own := d == a && !la
  let val (i j : Nat) : Word := if i = 0 then (if own then c.buffered 0 a.toNat j else (c.src a.toNat).lane j) else 0
  let first : Mask := match c.spl.prog with
    | some p => p.buf.getD 32 0
    | none => (c.src a.toNat).bad
  let bad : Mask := Mask.ofLanes (todo.lanes.filter fun k => match f.source k sval 0 with
    | some j => act.has j && (if own && j < c.from then first else (c.src a.toNat).bad).has j
    | none => false)
  let stop := stopAt c.cutAt todo (bad ||| c.sBad r.toNat todo)
  let done := doneLanes todo stop
  let ds := [(d.toNat, (c.dest last d.toNat).write (Mask.ofLanes (done.lanes.filter fun k => (f.value act sval val k).isSome))
    fun k => (f.value act sval val k).getD 0)]
  let s := if stop.isNone then fin s else s
  c.endWalk stop last ds (fun k => p { c.progress k act last ds [r.toNat] (pair 0 sval) with buf := c.buffer [a.toNat] ++ [first] }) s

/-- A one-pass shuffle of the issuing split. -/
def shuffle1 (f : Shuffle) (d a r : BitVec 6) (la : Bool) (s : State) : Res :=
  laneStart Fmt.any [d.toNat] [r.toNat] [] s fun c => c.onePass f c.active d a r la id id s

/-! ### Member-masked forms (R103, R104) -/

/-- Q of R103: the splits that share a lane of MASK with Mm and are neither FREE nor PARENT, the issuing one included. -/
def Group.memberSet (g : Group) (i : Nat) (mm : Mask) : List (Nat × Split) :=
  List.filter (fun (e : Nat × Split) => e.1 == i || (e.2.st != .parent && e.2.mask &&& mm != 0)) g.splits

/-- The lanes a split brings to the rendezvous: its ACT filtered by the instruction's guard. -/
def memberLanes (guard : Mask) (e : Split) : Mask := e.act &&& guard

/-- Let every split that waits at this rendezvous go on with the issuing one (R103 item 4). -/
def Group.releaseMembers (g : Group) (pc : Dword) (mm : Mask) (len : Nat) (m : Bool) : Group :=
  { g with splits := List.map (fun e => (e.1,
      if e.2.memberAt = some (pc, mm) then
        { e.2 with pc := pc + BitVec.ofNat 64 len, wait := .none, mark := if m then some g.nextOp else none
                   st := if m then .blocked else .ready }
      else e.2)) g.splits }

/-- The lanes of Mm held by some splits. -/
def heldLanes (mm : Mask) (es : List (Nat × Split)) : Mask := es.foldl (fun m e => m ||| (e.2.mask &&& mm)) 0

/-- The arrival of a split at a member-masked form (R103, R104): the ILLEGAL of a 64th name in a handler first (R65, R281), MEMBER, a wait, or
the execution over E. The mask is S(r+1); `sread` says that the form reads S(r) too. -/
def memberForm (d r : BitVec 6) (sread : Bool) (s : State) (run : Issuer → Mask → Mask → State → State) : Res :=
  withIssuer s fun c =>
    match c.spl.prog with
    | some p => run c p.mm (p.act &&& c.grp.alive) s
    | none =>
      let mm := c.grp.sreg (r.toNat + 1)
      let guard : Mask := match c.guard with
        | none => 0xFFFFFFFF#32
        | some (p, neg) => if neg then ~~~(c.grp.pred p.toNat) else c.grp.pred p.toNat
      if sread && c.grp.sComing r.toNat || c.grp.sComing (r.toNat + 1) then c.stall s
      else if s.alloc c.team c.grp (c.needs [d.toNat]) (c.needs [d.toNat]).length = .illegal then c.raise .illegal s
      else if c.grp.sbad.contains (r.toNat + 1) then c.raise .ecc s
      else
        let t := s.modGroup c.tid c.gid fun g => g.arriveElsewhere c.sid c.spl.mask c.pc mm
        if mm &&& ~~~c.grp.alive != 0 then c.raiseLanes .member (mm &&& ~~~c.grp.alive) t
        else
          let q := c.grp.memberSet c.sid mm
          let others := q.filter fun e => e.1 != c.sid
          let wrong := others.filter fun e =>
            e.2.st == .arrived || match e.2.memberAt with | some x => x != (c.pc, mm) | none => false
          if wrong ≠ [] then c.raiseLanes .member (heldLanes mm wrong) t
          else if others.all fun e => e.2.memberAt == some (c.pc, mm) then
            let gm (e : Nat × Split) : Mask := match e.2.wait with | .member _ _ gd _ _ => gd | _ => guard
            let e := q.foldl (fun m x => m ||| (if x.1 = c.sid then memberLanes guard c.spl else memberLanes (gm x) x.2)) 0
            run c mm (mm &&& e) t
          else
            let first := others.findSome? fun e => match e.2.wait with
              | .member pc m _ t _ => if (pc, m) = (c.pc, mm) then some t else none
              | _ => none
            (c.count t).modSplit c.tid c.gid c.sid fun e =>
              { e with st := .blocked, wait := .member c.pc mm guard (first.getD s.now) c.grp.jto.toNat }

/-- A shuffle over the executing set E of a rendezvous, then every split of Q goes on (R103). -/
def shuffleMember (f : Shuffle) (d a r : BitVec 6) (la : Bool) (s : State) : Res :=
  memberForm d r (f != .perm) s fun c mm e s =>
    let release (s : State) : State := s.modGroup c.tid c.gid fun g => g.releaseMembers c.pc mm c.len c.m
    let kept (p : Progress) : Progress := { p with mm := mm }
    if c.spl.prog.isNone && c.grp.vBusy d.toNat then c.stall s
    else if e = 0 then c.finish (release s)
    else match if c.spl.prog.isSome then Alloc.ok else s.alloc c.team c.grp (c.needs [d.toNat]) (c.needs [d.toNat]).length with
      | .illegal => c.raise .illegal s
      | .wait => c.retry (.regs 1) s
      | .ok =>
        if f = .up ∨ f = .bcast then c.onePass f e d a r la release kept s
        else
          let sval := c.sword r.toNat
          c.twoPass e (if f = .perm then [a.toNat, d.toNat] else [a.toNat]) (last1 a la) d.toNat
            (if f = .perm then [] else [r.toNat]) sval [] (f.value e sval) (fun _ => release) kept s

/-- R101, R103. -/
def execShup (d a r : BitVec 6) (la g : Bool) (s : State) : Res :=
  if g then shuffleMember .up d a r la s else shuffle1 .up d a r la s
/-- R101: two passes. -/
def execShdn (d a r : BitVec 6) (la g : Bool) (s : State) : Res :=
  if g then shuffleMember .down d a r la s
  else lane2 [a.toNat] (last1 a la) d.toNat r.toNat true (fun act sv v => Shuffle.value .down act sv v) none s
/-- R101: two passes. -/
def execBfly (d a r : BitVec 6) (la g : Bool) (s : State) : Res :=
  if g then shuffleMember .fly d a r la s
  else lane2 [a.toNat] (last1 a la) d.toNat r.toNat true (fun act sv v => Shuffle.value .fly act sv v) none s
/-- R101: the lane is named by the old d; without .mm the s field is zero. -/
def execPerm (d a r : BitVec 6) (la g : Bool) (s : State) : Res :=
  if g then shuffleMember .perm d a r la s
  else lane2 [a.toNat, d.toNat] (last1 a la) d.toNat r.toNat false (fun act sv v => Shuffle.value .perm act sv v) none s
/-- R101. -/
def execBcastl (d a r : BitVec 6) (la g : Bool) (s : State) : Res :=
  if g then shuffleMember .bcast d a r la s else shuffle1 .bcast d a r la s

/-- R102: a predicate over the active lanes into S(s), after the last lane. -/
def execVote (p : BitVec 3) (r : BitVec 6) (s : State) : Res :=
  laneStart Fmt.any [] [] [r.toNat] s fun c =>
    let stop := stopAt c.cutAt (fromLane c.active c.from) 0
    let s := if stop.isNone then s.modGroup c.tid c.gid fun g => g.setS r.toNat (c.active &&& c.grp.pred p.toNat) else s
    c.endWalk stop [] [] (fun k => { c.progress k c.active [] [] [] 0 with sdests := [r.toNat] }) s

/-- The active lanes whose value equals lane k's (R102). -/
def matchMask (act : Mask) (v : Nat → Word) (k : Nat) : Mask := Mask.ofLanes (act.lanes.filter fun j => v j == v k)
/-- R102: masks of equal lanes into d, the lowest lane of each value into S(s). -/
def execMatchEq (d a r : BitVec 6) (la : Bool) (s : State) : Res :=
  lane2 [a.toNat] (last1 a la) d.toNat r.toNat false (fun act _ v k => some (matchMask act (v 0) k))
    (some fun act v => Mask.ofLanes (act.lanes.filter fun k => !(act.lanes.any fun j => j < k && v 0 j == v 0 k))) s
/-- R102: S(s) is read once, at issue (R79). -/
def execGets (d r : BitVec 6) (s : State) : Res :=
  laneStart Fmt.any [d.toNat] [r.toNat] [] s fun c =>
    let act := c.active
    let todo := fromLane act c.from
    let x := c.sword r.toNat
    let stop := stopAt c.cutAt todo (c.sBad r.toNat todo)
    let ds := [(d.toNat, (c.dest [] d.toNat).write (doneLanes todo stop) fun _ => x)]
    c.endWalk stop [] ds (fun k => c.progress k act [] ds [r.toNat] (pair 0 x)) s
/-- R102: the lowest active lane's value, after the last lane. -/
def execPuts (a r : BitVec 6) (la : Bool) (s : State) : Res :=
  laneStart Fmt.any [] [] [r.toNat] s fun c =>
    let act := c.active
    let k := (act.lanes.head?).getD 0
    let x := match c.spl.prog with | some p => if k < p.lane then p.acc else (c.src a.toNat).lane k | none => (c.src a.toNat).lane k
    let stop := stopAt c.cutAt (fromLane act c.from) ((c.src a.toNat).bad &&& Mask.one k)
    let s := if stop.isNone then s.modGroup c.tid c.gid fun g => g.setS r.toNat x else s
    c.endWalk stop (last1 a la) [] (fun k => { c.progress k act (last1 a la) [] [] 0 with acc := x, sdests := [r.toNat] }) s

end Sys2Proof.Machine
end

