-- ==== Sys2Proof/Machine/Miss.lean ====
section
/-! DEFINITION. What an access meets on its way to memory: a hit, a fault, or a miss that the sector controller parks and
reports to the driver (R233, R236, R237, R284, R319). -/
namespace Sys2Proof.Machine

/-- The access codes of a fault record (R319). -/
def accRead : Nat := 0
def accWrite : Nat := 1
def accAtomic : Nat := 2
def accFetch : Nat := 3
def accEngineRead : Nat := 4
def accEngineWrite : Nat := 5

/-- What a code asks of the leaf (R233). -/
def accessOf (code : Nat) : Access := if code = 3 then .fetch else if code = 0 ∨ code = 4 then .read else .write

/-- The sector of a core: 24 cores (R1, R13). -/
def sectorOf (core : Nat) : Nat := core / 24

/-- Write the fault records that the ring has room for, oldest first, each with MSI-X vector 1 (R357); the others are held (R319). -/
def flushRecords : Nat → State → State
  | 0, s => s
  | n + 1, s => match s.pkg.records with
    | [] => s
    | r :: rs =>
      let p := s.pkg
      if p.faultBase = 0 ∨ 2 ^ p.faultLog2 ≤ p.faultProd - p.faultCons then s
      else
        let s := s.store (hostKey + p.faultBase.toNat + 32 * (p.faultProd % 2 ^ p.faultLog2)) r
        flushRecords n { s with pkg := { s.pkg with records := rs, faultProd := p.faultProd + 1, msix := p.msix ++ [1] } }

/-- A 32-byte fault record (R319). -/
def recordBytes (token va space code : Nat) (prot : Bool) (sector : Nat) : List Byte :=
  natBytes 8 token ++ natBytes 8 va ++ natBytes 2 space ++ natBytes 1 code ++ natBytes 1 prot.toNat ++ natBytes 1 sector
    ++ natBytes 11 0

/-- Park a miss under a token: join the walk of its page if one of its die is waiting, else report it (R236, R319). -/
def State.park (s : State) (space va code : Nat) (prot : Bool) (sector : Nat) (w : WalkRef) : Nat × State :=
  let same (p : Nat × Park) : Bool :=
    p.2.space == space && p.2.va.toNat / 65536 == va / 65536 && p.2.prot == prot && p.2.sector / 8 == sector / 8
  match List.find? same s.parked with
  | some p => (p.1, { s with parked := s.parked.modify p.1 fun q => { q with refs := q.refs ++ [w] } })
  | none =>
    let t := s.nextToken
    let s := { s with
      nextToken := t + 1
      parked := s.parked.insert t ⟨space, BitVec.ofNat 64 va, code, prot, sector, [w]⟩
      pkg := { s.pkg with records := s.pkg.records ++ [recordBytes t va space code prot sector] } }
    (t, flushRecords 64 s)

/-- What an access meets. -/
inductive Met where
  | hit (key : Nat)
  | fault (cause : Cause)
  | parked (token : Nat)
deriving DecidableEq, Repr

/-- Translate an access; a miss goes to the sector controller, in a fatal context or where the driver has declined it to a fault at
once (R237). -/
def State.reachAs (declined : Bool) (s : State) (space va code : Nat) (priv : Bool) (core : Nat) (w : WalkRef) : Met × State :=
  let fatal := declined || match s.ctxs.find? space with | some c => c.fatal | none => true
  let miss (prot : Bool) : Met × State :=
    if fatal then (.fault (if prot then .prot else .xlat), s)
    else
      let (t, s) := s.park space va code prot (sectorOf core) w
      (.parked t, s)
  match s.translate space va (accessOf code) priv with
  | .hit k => (.hit k, s)
  | .hard => (.fault .prot, s)
  | .ecc => (.fault .ecc, s)
  | .miss => miss false
  | .prot => miss true

def State.reach (s : State) (space va code : Nat) (priv : Bool) (core : Nat) (w : WalkRef) : Met × State :=
  s.reachAs false space va code priv core w

/-- The driver has declined the miss that this instruction met at issue. -/
def Issuer.declined (c : Issuer) : Bool := c.spl.wait == .declined

/-- Translate an access that the issuing split makes at issue. -/
def Issuer.reach (c : Issuer) (s : State) (va code : Nat) : Met × State :=
  s.reachAs c.declined c.team.space va code c.grp.privileged c.team.core (.split c.tid c.gid c.sid)

/-- A fetch or an access at issue has missed: the split stays READY and issues again once the miss is serviced (R33, R237). -/
def Issuer.missed (c : Issuer) (tok : Nat) (s : State) : State :=
  s.modSplit c.tid c.gid c.sid fun e => { e with wait := .walk tok }

/-- What an access at issue meets when it is no hit: a fault now, or a park until the miss is serviced (R237). -/
def Issuer.meet (c : Issuer) (m : Met) (s : State) : State :=
  match m with
  | .fault cause => c.raise cause (s.modSplit c.tid c.gid c.sid fun e => { e with wait := .none })
  | .parked tok => c.missed tok s
  | .hit _ => s

/-- Count n line accesses for migration (R240). -/
def State.countLines (s : State) (core key n : Nat) : State :=
  let k := key / 65536 * 8 + dieOf core
  { s with counts := s.counts.insert k (min 65535 (s.counts.getD k 0 + n)) }

def State.count (s : State) (core key : Nat) : State := s.countLines core key 1

/-! ### The caches of a core (R227, R228; log entry 8) -/

/-- The lines of which a core holds a copy. -/
def linesOf (m : SMap (List Nat)) (core : Nat) : List Nat := (m.filter fun (e : Nat × List Nat) => e.2.contains core).map Prod.fst

/-- A core takes a copy of a line. -/
def addLine (m : SMap (List Nat)) (core line : Nat) : SMap (List Nat) := m.insert line (setInsert (m.getD line []) core)

/-- A core gives up a copy. -/
def dropLine (m : SMap (List Nat)) (core line : Nat) : SMap (List Nat) :=
  match setErase (m.getD line []) core with
  | [] => m.erase line
  | cs => m.insert line cs

/-- The dies whose cores hold L1 copies of a line, as the die cache of its home records them (R228). -/
def State.holderDies (s : State) (line : Nat) : List Nat := (s.l1.getD line []).foldl (fun l c => setInsert l (dieOf c)) []

/-- A core reads a line through its L1 of 2048 lines: a miss reaches the die level and counts (R240). A full L1 gives up one line, which one is
free. A line of the second host tier is never held. -/
def State.readLine (s : State) (core key : Nat) : State :=
  let line := key / 64
  if hostKey ≤ key then s.count core key
  else if (s.l1.getD line []).contains core then s
  else
    let held := linesOf s.l1 core
    let s := if held.length < 2048 then s
      else
        let (i, s) := s.draw held.length
        { s with l1 := dropLine s.l1 core (held.getD i 0) }
    { s.count core key with l1 := addLine s.l1 core line }

/-- A core fetches from a line through its instruction cache of 1024 lines. -/
def State.fetchLine (s : State) (core key : Nat) : State :=
  let line := key / 64
  if (s.icache.getD line []).contains core then s
  else
    let held := linesOf s.icache core
    let s := if held.length < 1024 then s
      else
        let (i, s) := s.draw held.length
        { s with icache := dropLine s.icache core (held.getD i 0) }
    { s.count core key with icache := addLine s.icache core line }

end Sys2Proof.Machine
end

