-- ==== Sys2Proof/Machine/Uniform.lean ====
section
/-! DEFINITION. Uniform arithmetic on s registers: formats GR, GI and the two data forms of GL (R106 to R111). -/
namespace Sys2Proof.Machine

/-- A kind-F group word (R106): a wait while a lane instruction's result in a source is to come (R18), the ILLEGAL or PRIV it meets first
(R65), ECC on a poisoned source, a wait while a destination has a write outstanding (R67, R82), else its effect. Among the faults raised at issue
ECC comes first (log entry 63). -/
def groupWordAfter (pre : Issuer → Option Cause) (reads writes : List Nat) (s : State) (f : Issuer → State) : Res :=
  withIssuer s fun c =>
    if reads.any c.grp.sComing then c.stall s
    else match pre c with
    | some cause => c.raise cause s
    | none =>
      if reads.any c.grp.sbad.contains then c.raise .ecc s
      else if writes.any c.grp.sBusy then c.stall s
      else f c

def groupWord (reads writes : List Nat) (s : State) (f : Issuer → State) : Res := groupWordAfter (fun _ => none) reads writes s f

/-- S(d) := f. -/
def setWord (reads : List Nat) (d : BitVec 6) (f : Group → Word) (s : State) : Res :=
  groupWord reads [d.toNat] s fun c => c.finish (s.modGroup c.tid c.gid fun g => g.setS d.toNat (f c.grp))

/-- S(d) := f (S(a)) (S(b)). -/
def sTwo (d a b : BitVec 6) (f : Word → Word → Word) (s : State) : Res :=
  setWord [a.toNat, b.toNat] d (fun g => f (g.sreg a.toNat) (g.sreg b.toNat)) s

/-- S(d) := f (S(d)). -/
def sSelf (d : BitVec 6) (f : Word → Word) (s : State) : Res := setWord [d.toNat] d (fun g => f (g.sreg d.toNat)) s

/-- R108. -/
def execSadd (d a b : BitVec 6) (s : State) : Res := sTwo d a b (fun x y => x + y) s
/-- R108. -/
def execSsub (d a b : BitVec 6) (s : State) : Res := sTwo d a b (fun x y => x - y) s
/-- R108. -/
def execSmul (d a b : BitVec 6) (s : State) : Res := sTwo d a b (fun x y => x * y) s
/-- R108. -/
def execSmulh (d a b : BitVec 6) (k : Bool) (s : State) : Res := sTwo d a b (fun x y => if k then mulHiU x y else mulHiS x y) s
/-- R108. -/
def execSmin (d a b : BitVec 6) (k : Bool) (s : State) : Res :=
  sTwo d a b (fun x y => if k then (if y.ult x then y else x) else (if y.slt x then y else x)) s
/-- R108. -/
def execSmax (d a b : BitVec 6) (k : Bool) (s : State) : Res :=
  sTwo d a b (fun x y => if k then (if x.ult y then y else x) else (if x.slt y then y else x)) s
/-- R108. -/
def execSand (d a b : BitVec 6) (s : State) : Res := sTwo d a b (fun x y => x &&& y) s
/-- R108. -/
def execSor (d a b : BitVec 6) (s : State) : Res := sTwo d a b (fun x y => x ||| y) s
/-- R108. -/
def execSxor (d a b : BitVec 6) (s : State) : Res := sTwo d a b (fun x y => x ^^^ y) s
/-- R108. -/
def execSshl (d a b : BitVec 6) (s : State) : Res := sTwo d a b (fun x y => shl x y.toNat) s
/-- R108. -/
def execSshr (d a b : BitVec 6) (s : State) : Res := sTwo d a b (fun x y => shr x y.toNat) s
/-- R108. -/
def execSshra (d a b : BitVec 6) (s : State) : Res := sTwo d a b (fun x y => sar x y.toNat) s
/-- R108: pairs. -/
def execSadd64 (d a b : BitVec 6) (s : State) : Res :=
  groupWord [a.toNat, a.toNat + 1, b.toNat, b.toNat + 1] [d.toNat, d.toNat + 1] s fun c =>
    c.finish (s.modGroup c.tid c.gid fun g => g.setPair d.toNat (c.grp.spair a.toNat + c.grp.spair b.toNat))
/-- R108, R77. -/
def execScmp (d a b : BitVec 6) (k : BitVec 3) (s : State) : Res :=
  sTwo d a b (fun x y => if scmpCond k.toNat x y then 1 else 0) s

/-- A float word on s registers: the issuing split's FMT, ILLEGAL for a reserved rounding mode (R108). -/
def sFloat (d a b : BitVec 6) (f : Fmt → Word → Word → Word) (s : State) : Res :=
  withIssuer s fun c =>
    if !c.fmt.rmOk then c.raise .illegal s
    else if c.grp.sComing a.toNat || c.grp.sComing b.toNat then c.stall s
    else if c.grp.sbad.contains a.toNat || c.grp.sbad.contains b.toNat then c.raise .ecc s
    else if c.grp.sBusy d.toNat then c.stall s
    else c.finish (s.modGroup c.tid c.gid fun g => g.setS d.toNat (f c.fmt (c.grp.sreg a.toNat) (c.grp.sreg b.toNat)))
/-- R108. -/
def execSfadd (d a b : BitVec 6) (s : State) : Res := sFloat d a b fAdd s
/-- R108. -/
def execSfmul (d a b : BitVec 6) (s : State) : Res := sFloat d a b fMul s
/-- R109, kind L: the quotient is written later; it waits for a lane instruction that writes its register (R82). -/
def execSdivn (d a b : BitVec 6) (s : State) : Res :=
  groupWord [a.toNat, b.toNat] [] s fun c =>
    let x := c.grp.sreg a.toNat
    let y := c.grp.sreg b.toNat
    let q := if y = 0 then 0xFFFFFFFF#32 else x / y
    if c.grp.sComing d.toNat then c.stall s
    else c.finish (s.modGroup c.tid c.gid fun g => g.push { c.lop (.sdiv d.toNat q) with sdests := [d.toNat] })
/-- R108. -/
def execSpopc (d a : BitVec 6) (s : State) : Res :=
  setWord [a.toNat] d (fun g => BitVec.ofNat 32 (popc (g.sreg a.toNat))) s
/-- R108. -/
def execSff1 (d a : BitVec 6) (s : State) : Res := setWord [a.toNat] d (fun g => BitVec.ofNat 32 (ff1 (g.sreg a.toNat))) s

/-- R110: d is not a source. -/
def execSmovi (d : BitVec 6) (imm : BitVec 16) (s : State) : Res := setWord [] d (fun _ => sext16 imm) s
/-- R110. -/
def execSmovhi (d : BitVec 6) (imm : BitVec 16) (s : State) : Res := sSelf d (fun x => halves imm.toNat (half x 0)) s
/-- R110. -/
def execSaddi (d : BitVec 6) (imm : BitVec 16) (s : State) : Res := sSelf d (fun x => x + sext16 imm) s
/-- R110. -/
def execSandi (d : BitVec 6) (imm : BitVec 16) (s : State) : Res := sSelf d (fun x => x &&& zext16 imm) s
/-- R110. -/
def execSori (d : BitVec 6) (imm : BitVec 16) (s : State) : Res := sSelf d (fun x => x ||| zext16 imm) s
/-- R110. -/
def execSxori (d : BitVec 6) (imm : BitVec 16) (s : State) : Res := sSelf d (fun x => x ^^^ zext16 imm) s
/-- R110. -/
def execSshli (d : BitVec 6) (imm : BitVec 5) (s : State) : Res := sSelf d (fun x => shl x imm.toNat) s
/-- R110. -/
def execSshri (d : BitVec 6) (imm : BitVec 5) (s : State) : Res := sSelf d (fun x => shr x imm.toNat) s
/-- R110. -/
def execSmuli (d : BitVec 6) (imm : BitVec 16) (s : State) : Res := sSelf d (fun x => x * sext16 imm) s
/-- R111. -/
def execSmov32 (d : BitVec 6) (imm : Word) (s : State) : Res := setWord [] d (fun _ => imm) s
/-- R111. -/
def execSadd32 (d : BitVec 6) (imm : Word) (s : State) : Res := sSelf d (fun x => x + imm) s

end Sys2Proof.Machine
end

