-- ==== Sys2Proof/Machine/Control.lean ====
section
/-! DEFINITION. Transfers of control, divergence and joins, EXIT, TRAP and BKPT (R112 to R119). -/
namespace Sys2Proof.Machine

/-- A transfer to a target (R112). -/
def jump (reads : List Nat) (s : State) (f : Issuer → Dword) : Res := groupWord reads [] s fun c => c.goto (f c) s

/-- R112. -/
def execBra (o : BitVec 17) (s : State) : Res := jump [] s fun c => target c.pc o
/-- R112. -/
def execBz (a : BitVec 6) (o : BitVec 17) (s : State) : Res :=
  jump [a.toNat] s fun c => if c.grp.sreg a.toNat = 0 then target c.pc o else c.next
/-- R112. -/
def execBnz (a : BitVec 6) (o : BitVec 17) (s : State) : Res :=
  jump [a.toNat] s fun c => if c.grp.sreg a.toNat = 0 then c.next else target c.pc o
/-- R112: the link is the next word. -/
def execCall (a : BitVec 6) (o : BitVec 17) (s : State) : Res :=
  groupWord [] [a.toNat, a.toNat + 1] s fun c =>
    c.goto (target c.pc o) (s.modGroup c.tid c.gid fun g => g.setPair a.toNat (c.pc + 4))
/-- R112, R113: ALIGN at the BRX for a misaligned target. -/
def execBrx (a : BitVec 6) (s : State) : Res :=
  groupWord [a.toNat, a.toNat + 1] [] s fun c =>
    let t := c.grp.spair a.toNat
    if t &&& 3 ≠ 0 then c.raise .align s else c.goto t s
/-- R111. -/
def execBraL (imm : Word) (s : State) : Res := jump [] s fun c => targetL c.pc imm
/-- R111: the link is PC + 8. -/
def execCallL (d : BitVec 6) (imm : Word) (s : State) : Res :=
  groupWord [] [d.toNat, d.toNat + 1] s fun c =>
    c.goto (targetL c.pc imm) (s.modGroup c.tid c.gid fun g => g.setPair d.toNat (c.pc + 8))
/-- R112: all, any or none of ACT. -/
def execBvote (t : BitVec 2) (p : BitVec 3) (o : BitVec 17) (s : State) : Res :=
  jump [] s fun c =>
    let m := c.spl.act &&& c.grp.pred p.toNat
    let holds := match t.toNat with
      | 0 => m == c.spl.act
      | 1 => m != 0
      | _ => m == 0
    if holds then target c.pc o else c.next

/-- Divide the issuing split (R28), or let it continue where all its lanes go. -/
def Issuer.split (c : Issuer) (outs : List (Dword × Mask)) (s : State) : State :=
  match outs with
  | [(t, _)] => c.goto t s
  | _ =>
    let mark := if c.m then some c.grp.nextOp else none
    let park (e : Nat × Split) : Nat × Split :=
      if c.m ∧ e.2.parent = c.sid ∧ e.1 ≠ c.sid ∧ e.2.st = .ready then (e.1, { e.2 with mark := mark, st := .blocked }) else e
    (c.count s).modGroup c.tid c.gid fun g =>
      let g := g.divide c.sid { c.spl with pc := c.next } outs
      { g with splits := List.map park g.splits }

/-- R114: predicated lanes to the target, the others to the next word, taken lanes first. -/
def execBdiv (p : BitVec 3) (o : BitVec 17) (s : State) : Res :=
  withIssuer s fun c =>
    let taken := c.spl.act &&& c.grp.pred p.toNat
    let rest := c.spl.act &&& ~~~taken
    if rest = 0 then c.goto (target c.pc o) s
    else if taken = 0 then c.goto c.next s
    else c.split [(target c.pc o, taken), (c.next, rest)] s

/-- A word of the instruction path read at issue (R115): its value, or what it meets. -/
def State.tableWord (s : State) (c : Issuer) (a : Dword) : Except Met Word × State :=
  if windowOf a.toNat = 4 then (.error (.fault .xlat), s)
  else if 2 ≤ windowOf a.toNat then (.error (.fault .prot), s)
  else match c.reach s a.toNat accFetch with
    | (.hit k, s) => if s.poisoned k 4 then (.error (.fault .ecc), s) else (.ok (bytesWord (s.bytes k 4)), s.readMem k 4)
    | (m, s) => (.error m, s)

/-- The table entries of ascending distinct indices (R115): the lanes of each with its target. -/
def readTable (c : Issuer) (T : Dword) (ix : Nat → Word) (act : Mask) : List Word → State → Except Met (List (Dword × Mask)) × State
  | [], s => (.ok [], s)
  | x :: xs, s =>
    match s.tableWord c (T + 4 + 4 * x.setWidth 64) with
    | (.error m, s) => (.error m, s)
    | (.ok w, s) =>
      match readTable c T ix act xs s with
      | (.ok l, s) => (.ok ((T + 4 * w.signExtend 64, Mask.ofLanes (act.lanes.filter fun k => ix k == x)) :: l), s)
      | (.error m, s) => (.error m, s)

/-- Sorted distinct words. -/
def distinct (l : List Word) : List Word := (l.foldl (fun s w => setInsert s w.toNat) []).map (BitVec.ofNat 32)

/-- R115: every index is checked before any division. -/
def execBidx (a : BitVec 6) (o : BitVec 17) (s : State) : Res :=
  withIssuer s fun c =>
    let T := target c.pc o
    let r := c.src a.toNat
    let act := c.spl.act
    if r.bad &&& act ≠ 0 then c.raise .ecc s
    else match s.tableWord c T with
      | (.error m, s) => c.meet m s
      | (.ok n, s) =>
        let bad := Mask.ofLanes (act.lanes.filter fun k => !(r.lane k).ult n)
        if bad ≠ 0 then c.raiseLanes .jtab bad s
        else match readTable c T r.lane act (distinct (act.lanes.map r.lane)) s with
          | (.error m, s) => c.meet m s
          | (.ok outs, s) => c.split outs s

/-- R116. -/
def execJset (o : BitVec 17) (s : State) : Res :=
  withIssuer s fun c => c.finish (s.modSplit c.tid c.gid c.sid fun e => { e with jpc := (target c.pc o).extractLsb' 2 55 })

/-- JOIN and JOINT (R116, R117, R30, R31): arrive and merge, or one issue slot without effect. The first JOINT arrival at a parent alone reads JTO;
a marker of an arriving JOIN parks the merged split (log entry 63). -/
def Issuer.join (c : Issuer) (timed : Bool) (s : State) : State :=
  if !c.grp.arrives c.sid c.spl c.pc then c.finish s
  else
    let s := (c.finish s).modGroup c.tid c.gid fun g =>
      let g := (g.arriveElsewhere c.sid c.spl.mask 0 0).modSplit c.sid fun e => { e with st := .arrived, wait := .none }
      if timed then g.modSplit c.spl.parent fun e =>
        if e.joint then e
        else { e with joint := true, timer := if g.jto = 0 then none else some (s.now + ticksOfCycles g.jto.toNat) }
      else g
    s.settle c.tid c.gid
/-- R116. -/
def execJoin (s : State) : Res := withIssuer s fun c => c.join false s
/-- R117. -/
def execJoint (s : State) : Res := withIssuer s fun c => c.join true s

/-- Ending this split would leave the group without lanes while kind-L work or a held fault is outstanding (R69). -/
def Issuer.lastLanes (c : Issuer) : Bool :=
  c.grp.alive &&& ~~~(if c.spl.parent = c.sid then c.spl.mask else c.spl.act) == 0 && (c.grp.ops.any c.grp.outstanding || c.grp.held != [])

/-- R118, R69: the last lanes first wait as at a marker. A handler that ends with EXIT fails its team (R280). -/
def execExit (s : State) : Res :=
  withIssuer s fun c =>
    let act := c.spl.act
    if c.grp.privileged then (c.count s).failTeam c.tid (c.grp.fr.fcause.toNat % 256)
    else if c.lastLanes then c.retry (.exitMarker c.grp.nextOp) s
    else
      let s := (c.finish s).modGroup c.tid c.gid fun g =>
        { g with alive := g.alive &&& ~~~act }.modSplit c.sid fun e =>
          { e with mask := e.mask &&& ~~~act, act := 0, mark := none, st := .ready }
      let s := s.settle c.tid c.gid
      if ((s.group? c.tid c.gid).map Group.alive).getD 1 = 0 then s.retireGroup c.tid c.gid else s

/-- TRAP and BKPT have completed when they raise (R119, R283). -/
def Issuer.trapTo (c : Issuer) (cause : Cause) (code : Nat) (s : State) : State :=
  let s := c.finish s
  s.deliver c.tid c.gid { c.record cause c.spl.act with detail := code, issue := c.grp.issued + 1 }
/-- R119. -/
def execTrap (c : BitVec 8) (s : State) : Res := withIssuer s fun i => i.trapTo .trap c.toNat s
/-- R119. -/
def execBkpt (s : State) : Res := withIssuer s fun i => i.trapTo .bkpt 0 s

end Sys2Proof.Machine
end

