-- ==== Sys2Proof/Machine/FabSend.lean ====
section
/-! DEFINITION. How packets leave the device: runs of sequence numbers, planes, lines and masks (R150, R339 to R344, R348). -/
namespace Sys2Proof.Machine

/-- The planes whose port is UP (R343, R354). -/
def State.upPlanes (s : State) : List Nat := ((s.fab.ports.filter fun p => p.2.st == .up).map Prod.fst)

/-- A packet with only zero fields. -/
def Packet.blank : Packet :=
  { type := 0, trimmed := false, hp := false, trailer := false, length := 0, target := 0, mc := false, source := 0, seq := 0,
    prior := 0, plane := 0, pv := false, status := 0, epoch := 0, domain := 0, lowack := 0, line := 0, mask := 0, payload := [],
    index := [], reserved := false }

/-- The key of a run: the peer, or 4096 + the group (R344). -/
def runKey (mc : Bool) (target : Nat) : Nat := if mc then 4096 + target else target

def Run.empty : Run := ⟨0, [], []⟩

def State.setRun (s : State) (key : Nat) (r : Run) : State :=
  { s with fab := { s.fab with runs := s.fab.runs.insert key r } }

def State.setPort (s : State) (i : Nat) (p : Port) : State :=
  { s with fab := { s.fab with ports := s.fab.ports.insert i p } }

/-- A packet as it travels (R339): header, payload, index trailer. -/
def packetBytes (p : Packet) : List Byte :=
  let b0 := p.type.toNat + 16 * p.trimmed.toNat + 32 * p.hp.toNat + 64 * p.trailer.toNat
  natBytes 1 b0 ++ natBytes 1 p.length.toNat ++ natBytes 2 (p.target.toNat + 4096 * p.mc.toNat) ++ natBytes 2 p.source.toNat ++
    natBytes 2 p.seq.toNat ++ natBytes 2 p.prior.toNat ++ natBytes 1 (p.plane.toNat + 32 * p.pv.toNat) ++
    natBytes 1 (p.status.toNat + 16 * p.epoch.toNat) ++ natBytes 2 p.domain.toNat ++ natBytes 2 p.lowack.toNat ++
    natBytes 8 p.line.toNat ++ natBytes 8 p.mask.toNat ++ p.payload.flatMap wordBytes ++ p.index

/-- The trailer of a flit (R337): its sequence, the last one accepted of the reverse direction, the CRC over data and low word. -/
def Port.trailer (p : Port) (seq : Nat) (data : List Byte) : Dword :=
  let low : Word := BitVec.ofNat 32 (seq + 4096 * ((p.rxSeq + 4095) % 4096))
  pair (BitVec.ofNat 32 (crc32 (data ++ wordBytes low))) low

/-- Flits sent and not acknowledged. -/
def Port.unacked (p : Port) : Nat := (p.txSeq + 4096 - p.acked) % 4096

/-- A kept flit is not acknowledged. -/
def Port.owes (p : Port) (f : Flit) : Bool := (f.seq + 4096 - p.acked) % 4096 < p.unacked

/-- Send a flit; the last 512 are kept (R337, R338). -/
def Port.put (p : Port) (data : List Byte) : Port :=
  let kept := p.replay ++ [⟨p.txSeq, data, 0⟩]
  { p with txSeq := (p.txSeq + 1) % 4096, replay := kept.drop (kept.length - 512)
           wire := p.wire ++ [(data, p.trailer p.txSeq data)] }

/-- A flit goes out, or waits while 512 are not acknowledged: a sender can replay no more than it keeps (R338). -/
def Port.push (p : Port) (data : List Byte) : Port :=
  if 512 ≤ p.unacked ∨ p.backlog ≠ [] then { p with backlog := p.backlog ++ [data] } else p.put data

/-- Flits that waited go out. -/
def Port.flush : Nat → Port → Port
  | 0, p => p
  | n + 1, p => match p.backlog with
    | [] => p
    | d :: ds => if 512 ≤ p.unacked then p else Port.flush n ({ p with backlog := ds }.put d)

/-- Send bytes as flits of 64 on a port (R337). -/
def Port.sendFlits : Nat → Port → List Byte → Port
  | 0, p, _ => p
  | n + 1, p, bs => Port.sendFlits n (p.push (bs.take 64 ++ List.replicate (64 - bs.length) 0)) (bs.drop 64)

/-- A flit not acknowledged has been replayed 16 times: the link retrains (R338). -/
def Port.exhausted (p : Port) : Bool := p.replay.any fun f => p.owes f && 16 ≤ f.replays

/-- Replay every flit that is not acknowledged, in the original order (R338). -/
def Port.replayFlits (p : Port) : Port :=
  { p with
    wire := p.wire ++ (p.replay.filter p.owes).map fun f => (f.data, p.trailer f.seq f.data)
    replay := p.replay.map fun f => if p.owes f then { f with replays := f.replays + 1 } else f }

/-- Send a packet on a plane. -/
def State.emitOn (s : State) (plane : Nat) (p : Packet) : State :=
  let p := { p with plane := BitVec.ofNat 5 plane }
  let bs := packetBytes p
  { s with fab := { s.fab with
      out := s.fab.out ++ [p]
      ports := s.fab.ports.modify plane fun x => x.sendFlits ((bs.length + 63) / 64) bs } }

/-- The UP plane with the most free link credits, on equal ones the lowest (R343): the one with the fewest flits not acknowledged (log entry
12). -/
def State.bestPlane (s : State) : Option Nat :=
  ((s.fab.ports.filter fun p => p.2.st == .up).foldl (fun (b : Option (Nat × Nat)) p => match b with
    | none => some (p.2.unacked, p.1)
    | some x => if p.2.unacked < x.1 then some (p.2.unacked, p.1) else b) none).map Prod.snd

/-- The plane field of a packet that no plane could carry yet. -/
def noPlane : BitVec 5 := 31

/-- Send a packet on the plane R343 picks; with no plane UP it stays unsent and will time out. -/
def State.emit (s : State) (p : Packet) : Packet × State :=
  match s.bestPlane with
  | none => ({ p with plane := noPlane }, s)
  | some plane => ({ p with plane := BitVec.ofNat 5 plane }, s.emitOn plane p)

/-- The time after which an unanswered packet has timed out: 50 µs (R347, R349). -/
def packetTimeout : Nat := 900000

/-- Give a packet the next seq of its run and send it, or let it wait while 1024 are unacknowledged (R344). -/
def State.sendPacket (s : State) (p : Packet) (origin : Origin) (ctx : Nat) : State :=
  let key := runKey p.mc p.target.toNat
  let r := s.fab.runs.getD key Run.empty
  if 1024 ≤ r.flight.length then
    s.setRun key { r with waiting := r.waiting ++ [Unacked.mk p origin ctx [] 0 none 0 [] none none false] }
  else
    let seq : BitVec 16 := BitVec.ofNat 16 r.next
    let before := (r.flight.filter fun u => u.pkt.line == p.line).getLast?
    let p := { p with
      source := BitVec.ofNat 12 s.pkg.peer
      seq := seq
      epoch := BitVec.ofNat 4 s.pkg.epoch
      pv := before.isSome
      prior := (before.map fun u => u.pkt.seq).getD 0
      lowack := ((r.flight.head?).map fun u => u.pkt.seq).getD seq }
    let (p, s) := s.emit p
    s.setRun key { r with next := (r.next + 1) % 65536
                          flight := r.flight ++ [Unacked.mk p origin ctx [] (s.now + packetTimeout) none 0 [] none none false] }

/-- The window fields of a fabric address (R134): target and offset. -/
def fabTarget (ea : Nat) : Nat := fld ea 43 12
def fabOffset (ea : Nat) : Nat := fld ea 0 43

/-- Lanes by packet: target and 256-byte line, in ascending order of the lowest lane (R150). -/
def byLine (accs : List LaneAcc) : List (Nat × List LaneAcc) :=
  accs.foldl (fun gs a =>
    let k := a.ea.toNat / 256
    if gs.any fun g => g.1 == k then gs.map fun g => if g.1 = k then (g.1, g.2 ++ [a]) else g
    else gs ++ [(k, [a])]) []

/-- The bytes written to a line, the highest lane winning (R138). -/
def lineBytes (accs : List LaneAcc) : SMap Byte :=
  accs.foldl (fun m a =>
    (a.data.zipIdx).foldl (fun m b => SMap.insert m (a.ea.toNat % 256 + b.2) b.1) m) []

/-- A write packet's mask, payload and trailer (R342). -/
def writeBody (bs : SMap Byte) : Dword × List Word × List Byte :=
  let words := (List.range 64).filter fun w => (List.range 4).any fun b => (bs.find? (4 * w + b)).isSome
  let whole := words.all fun w => (List.range 4).all fun b => (bs.find? (4 * w + b)).isSome
  let mask : Dword := words.foldl (fun m w => m ||| (1#64 <<< w)) 0
  let payload := words.map fun w => bytesWord ((List.range 4).map fun b => bs.getD (4 * w + b) 0)
  let index := if whole then [] else
    (List.range 32).map fun j => BitVec.ofNat 8 (((List.range 8).filter fun b => (bs.find? (8 * j + b)).isSome).foldl
      (fun n b => n + 2 ^ b) 0)
  (mask, payload, index)

/-- The words of a line that lanes read (R342). -/
def readMask (accs : List LaneAcc) (size : Nat) : Dword :=
  accs.foldl (fun m a => (wordsOfLine (a.ea.toNat % 256) size).foldl (fun m w => m ||| (1#64 <<< w)) m) 0
where
  wordsOfLine (off size : Nat) : List Nat := (List.range ((off + size - 1) / 4 - off / 4 + 1)).map (· + off / 4)

/-- An atomic or reduction packet's mask, payload and trailer (R342). -/
def atomicBody (code : Nat) (accs : List LaneAcc) : Dword × List Word × List Byte :=
  let n := accs.length
  (BitVec.ofNat 64 (code + 256 * n), accs.flatMap fun a => [bytesWord a.data, a.cmp],
    (accs.map fun a => BitVec.ofNat 8 (a.ea.toNat % 256 / 4)) ++ List.replicate (32 - n) 0)

/-- Send the packets of one instruction's fabric lanes (R150). `type` is 0 read, 2 write, 4 atomic, 6 reduction. -/
def State.sendLanes (s : State) (t g op fctx type size code : Nat) (accs : List LaneAcc) : State :=
  let domain := ((s.fab.ctxs.find? fctx).map FabCtx.domain).getD 0
  (byLine accs).foldl (fun s l =>
    let ea := l.1 * 256
    let mc := windowOf ea == 3
    let (mask, payload, index) :=
      if type = 0 then (readMask l.2 size, [], [])
      else if type = 2 then writeBody (lineBytes l.2)
      else atomicBody code l.2
    let p := { Packet.blank with
      type := BitVec.ofNat 4 (if mc then (if type = 2 then 9 else 10) else type)
      trailer := !index.isEmpty
      length := BitVec.ofNat 7 payload.length
      target := BitVec.ofNat 12 (fabTarget ea)
      mc := mc
      domain := BitVec.ofNat 16 domain
      line := BitVec.ofNat 64 (fabOffset ea)
      mask := mask
      payload := payload
      index := index }
    s.sendPacket p (.lanes t g op (l.2.map LaneAcc.lane)) fctx) s

/-- A multicast group may be used by a fabric context (R348). -/
def State.groupOk (s : State) (fctx group : Nat) : Bool :=
  match s.pkg.mcast.find? group, s.fab.ctxs.find? fctx with
  | some m, some c => m.domain == c.domain
  | _, _ => false

end Sys2Proof.Machine
end

