-- ==== Sys2Proof/Machine/MemOrder.lean ====
section
/-! DEFINITION. Outstanding accesses of a group: results, faults after the pipe, and the orders of R123, R140, R145, R247 and R248
that say when one may be performed or sent. -/
namespace Sys2Proof.Machine

/-- An event that cannot happen now. -/
def notNow (name : String) : Res := .refused (.notEnabled name)

/-! ### Results into an outstanding instruction -/

/-- Remove an access, or all of lane k's. -/
def LOp.dropAcc (o : LOp) (tag : Nat) : LOp := { o with accs := o.accs.filter fun a => a.tag != tag }
def LOp.dropLane (o : LOp) (k : Nat) : LOp := { o with accs := o.accs.filter fun a => a.lane != k }

/-- Words arrive in lane k of the destinations from the i-th on (R137), with poison where `bad` says. -/
def LOp.giveFrom (o : LOp) (i k : Nat) (ws : List Word) (bad : Bool) : LOp :=
  { o with
    wrote := o.wrote ||| Mask.one k
    nv := o.nv.mapIdx fun j r =>
      if j < i || i + ws.length ≤ j then r
      else
        let w := r.write (Mask.one k) fun _ => ws.getD (j - i) 0
        if bad then { w with bad := w.bad ||| Mask.one k } else w }

/-- Lane k's words arrive. -/
def LOp.giveLane (o : LOp) (k : Nat) (ws : List Word) (bad : Bool) : LOp := o.giveFrom 0 k ws bad

/-- Lane k faults after the pipe (R136): it performs nothing, and the instruction holds one fault for each cause. -/
def LOp.faultLane (o : LOp) (k : Nat) (cause : Cause) (addr : Dword) : LOp :=
  let f : FaultRec :=
    { op := o.id, split := o.split, pc := o.pc, cause := cause, lanes := Mask.one k, detail := 0, addr := addr, pix := 0,
      issue := o.issue, held := true, opn := 0, opc := 0, fit := [] }
  { o.dropLane k with faults := holdFault o.faults f, wrote := o.wrote &&& ~~~Mask.one k }

/-- Change an outstanding instruction and complete what is complete. -/
def State.modOp (s : State) (t g id : Nat) (f : LOp → LOp) : State := s.modGroup t g fun G => (G.modOp id f).sweep

/-- An access of an outstanding instruction. -/
def State.acc? (s : State) (t g id tag : Nat) : Option (Team × Group × LOp × LaneAcc) :=
  match s.teams.find? t with
  | none => none
  | some T => if !T.here then none else match T.groups.find? g with
    | none => none
    | some G => match G.op? id with
      | none => none
      | some o => (o.accs.find? fun a => a.tag == tag).map fun a => (T, G, o, a)

/-! ### Order (R247, R248) -/

def LKind.isAtomic : LKind → Bool
  | .atomic _ true | .padAtomic _ => true
  | _ => false
def LKind.isStore : LKind → Bool
  | .store _ | .padStore | .atomic _ false => true
  | _ => false
/-- The package scheduler answers it (R196, R199, R201). -/
def LKind.isView : LKind → Bool
  | .view _ _ _ | .kvalloc _ _ _ => true
  | _ => false
def LKind.isPad : LKind → Bool
  | .padLoad _ | .padStore | .padAtomic _ => true
  | _ => false

/-- A place in the program order of a group (R247): the instruction and its order number, the lanes whose accesses come before its split's, and
whether a handler issued it. -/
structure Place where
  id : Nat
  ord : Nat
  mask : Mask
  handler : Bool

def LOp.place (o : LOp) (ord : Nat) : Place := ⟨o.id, ord, o.mask, o.handler⟩
def Buffered.place (b : Buffered) : Place := ⟨b.id, b.ord, b.mask, b.handler⟩

/-- x comes before y in program order (R247): of another instruction, earlier, and their splits are the same, one divided from the other or
merged into it, or a handler runs between them (R251). The lanes of one instruction are unordered (R248). -/
def Place.before (x y : Place) : Bool := x.id != y.id && x.ord < y.ord && (x.mask &&& y.mask != 0 || x.handler != y.handler)

/-- Accesses of n bytes at a and m bytes at b touch a common location, an aligned 4-byte word (R244). -/
def meets (a n b m : Nat) : Bool := a / 4 ≤ (b + m - 1) / 4 && b / 4 ≤ (a + n - 1) / 4

/-- The write-buffer bank of an address (R140). -/
def bankOf (ea : Dword) : Nat := fld ea.toNat 6 2

/-- Two ordinary accesses reach a common location (R244), or may: where one is not translated yet, addresses alike in their page offsets. -/
def LaneAcc.mayMeet (a : LaneAcc) (ea : Dword) (key : Option Nat) (size : Nat) : Bool :=
  !a.fab && a.pad.isNone && match a.key, key with
    | some x, some y => meets x a.size y size
    | _, _ => meets (a.ea.toNat % 65536) a.size (ea.toNat % 65536) size

/-- An earlier load or atomic of program order is not performed yet. -/
def Group.loadsBefore (g : Group) (y : Place) : Bool :=
  g.ops.any fun x => (x.kind.isLoad || x.kind.isAtomic) && x.accs.any fun a => (x.place a.ord).before y

/-- An earlier access of program order that is a load or atomic of one location with this, or may be one where it is not translated yet; so
too a store that is not in the buffer yet. -/
def Group.sameBefore (g : Group) (y : Place) (ea : Dword) (key size : Nat) : Bool :=
  g.ops.any fun x => !x.kind.isPad && (x.kind.isLoad || x.kind.isAtomic || x.kind.isStore) &&
    x.accs.any fun a => (x.place a.ord).before y && !(x.kind.isStore && a.key.isSome) && a.mayMeet ea (some key) size

/-- The bytes the group's own buffer forwards to a load (R140): by key, the youngest earlier store. -/
def Group.forward (g : Group) (id ord key size : Nat) : SMap Byte :=
  (g.wbuf.filter fun b => b.id != id && b.ord < ord && b.red.isNone).foldl (fun m b =>
    b.bytes.foldl (fun m x => if key ≤ x.1 ∧ x.1 < key + size then SMap.insert m x.1 x.2 else m) m) []

/-- A buffered store or reduction meets these bytes' locations. -/
def Group.buffered (g : Group) (p : Buffered → Bool) (key size : Nat) : Bool :=
  g.wbuf.any fun b => p b && b.bytes.any fun x => meets x.1 1 key size

/-- The kind-L instruction is in its pipe, not stopped. -/
def Group.walking (g : Group) (id : Nat) : Bool := g.splits.any fun e => e.2.st != .frozen && e.2.walks.any fun p => p.op == some id

/-- A lane above a buffered store's, of the same instruction, that may write its bytes and is still to be translated or sent: until then the
store is visible to nobody (R138). -/
def Group.higherComing (g : Group) (b : Buffered) : Bool :=
  let near (n : Nat) (ea : Dword) : Bool := ea.toNat % 65536 / n == b.ea.toNat % 65536 / n
  (g.op? b.id).any fun o =>
    (o.accs.any fun a => b.lane < a.lane && a.key.isNone && !a.fab && near a.size a.ea) ||
      g.walking b.id && o.coming.any fun x => b.lane < x.1 && near 16 x.2

/-- An instruction of this kind issued below `upto` has lanes still to be sent (R105); those of the program that stopped at a handler's
entry are still to come for what was issued before it, and follow what the handler issues (R251). -/
def Group.unsent (g : Group) (p : LKind → Bool) (upto : Nat) : Bool :=
  let of (splits : SMap Split) : Bool := splits.any fun e => e.2.walks.any fun x =>
    x.op.any fun id => id < upto && (g.op? id).any fun o => p o.kind
  of g.splits || g.saved.any fun x => upto ≤ x.firstOp && of x.splits

/-- Lanes that come before this place in the group's order are still to be sent. -/
def Group.unsentAt (g : Group) (p : LKind → Bool) (ord : Nat) : Bool :=
  g.anyWalk fun x => x.op.any fun id => x.ord.getD id < ord && (g.op? id).any fun o => p o.kind

/-- Every load and atomic issued below `upto`, of any split, that has been sent has returned; fabric atomics where `fabric` says (R123,
R145). -/
def Group.loadsBack (g : Group) (upto : Nat) (fabric : Bool) : Bool :=
  g.ops.all fun x => !(x.id < upto && (x.kind.isLoad || x.kind.isAtomic)) || x.accs.all fun a => x.kind.isAtomic && a.fab && !fabric

/-- Every load and atomic issued below `upto` has returned. -/
def Group.loadsDone (g : Group) (upto : Nat) (fabric : Bool) : Bool :=
  g.loadsBack upto fabric && !g.unsent (fun k => k.isLoad || k.isAtomic) upto

/-- Every store and atomic issued below `upto`, of any split, that has been sent has been performed at a scope (R123, R145, R246); fabric
accesses where `fabric` says. -/
def Group.storesOut (g : Group) (upto scope : Nat) (fabric : Bool) : Bool :=
  (g.ops.all fun x => !(x.id < upto && (x.kind.isStore || x.kind.isAtomic)) || x.accs.all fun a => a.fab && !fabric) &&
    (scope == 0 || g.wbuf.all fun b => !(b.id < upto))

/-- Every store and atomic issued below `upto` has been performed at a scope. -/
def Group.storesDone (g : Group) (upto scope : Nat) (fabric : Bool) : Bool :=
  g.storesOut upto scope fabric && !g.unsent (fun k => k.isStore || k.isAtomic) upto

/-- No store of the group is on its way to host memory: the flush read has completed (R255). -/
def State.flushed (s : State) (t g : Nat) : Bool := s.pkg.posted.all fun p => !(p.team == t && p.grp == g)

/-- Every access that the group issued below `upto` is performed at a scope, tier 2 included (R246, R249); fabric accesses at sys (R123,
R253), or where `fabric` says. -/
def State.allDoneWith (s : State) (t g : Nat) (G : Group) (upto scope : Nat) (fabric : Bool) : Bool :=
  G.loadsDone upto fabric && G.storesDone upto scope fabric && (scope < 5 || s.flushed t g)

def State.allDone (s : State) (t g : Nat) (G : Group) (upto scope : Nat) : Bool := s.allDoneWith t g G upto scope (5 ≤ scope)

/-- What the lanes of an STL wait for (R145): every load and atomic before it has returned, every store and atomic has been performed at its
scope; it orders fabric accesses at sys scope whatever code it carries (R253). -/
def State.releaseReady (s : State) (t g : Nat) (G : Group) (upto scope : Nat) : Bool := s.allDoneWith t g G upto scope true

/-- What a FENCE waits for has come (R123). -/
def State.fenceOver (s : State) (t g : Nat) (G : Group) (loads stores : Bool) (scope upto : Nat) : Bool :=
  (!loads || G.loadsDone upto (!stores || 5 ≤ scope)) &&
    (!stores || (G.storesDone upto scope (5 ≤ scope) && (scope < 5 || s.flushed t g)))

/-- The same for what has been sent: a handler goes on before the lanes that stopped at its entry are sent (R251). -/
def State.fencePassed (s : State) (t g : Nat) (G : Group) (loads stores : Bool) (scope upto : Nat) : Bool :=
  (!loads || G.loadsBack upto (!stores || 5 ≤ scope)) &&
    (!stores || (G.storesOut upto scope (5 ≤ scope) && (scope < 5 || s.flushed t g)))

/-- A FENCE that waits holds what the group issues after it, from any split: an acquiring one every access, a releasing one stores and
atomics (R123); one that the handler's entry has set aside holds the handler's too. -/
def State.fenced (s : State) (t g : Nat) (G : Group) (ord : Nat) (isLoad : Bool) : Bool :=
  let by_ (over_ : Bool → Bool → Nat → Nat → Bool) (splits : SMap Split) : Bool := splits.any fun e => match e.2.wait with
    | .fence loads stores scope upto => upto ≤ ord && (loads || !isLoad) && !over_ loads stores scope upto
    | _ => false
  by_ (s.fenceOver t g G) G.splits || G.saved.any fun x => by_ (s.fencePassed t g G) x.splits

/-! ### Sending to the fabric (R150) -/

/-- The fabric context of the issuing launch (R134); 0 means none. -/
def State.fctxOf (s : State) (T : Team) : Nat := ((s.launches.find? T.launch).map Launch.fabric).getD 0

/-- An earlier access of program order to a location of this one has not left yet (R245, R253). -/
def Group.unsentBefore (g : Group) (o : LOp) (a : LaneAcc) : Bool :=
  g.ops.any fun x => x.accs.any fun b => b.fab && !b.sent && (x.place b.ord).before (o.place a.ord) &&
    meets b.ea.toNat b.size a.ea.toNat a.size

/-- Every entry of a core's transaction table is held by fabric lanes of walks that wait for one: they leave as they are, since no walk could
end (log entry 20). -/
def State.tableStuck (s : State) (core : Nat) : Bool :=
  s.entriesFree core == 0 && s.teams.all fun t => t.2.core != core || !t.2.here || t.2.groups.all fun g =>
    g.2.wbuf.isEmpty && g.2.ops.all fun o => o.accs.all fun a => a.pad.isSome || a.fab && !a.sent && g.2.walking o.id

/-- Send the fabric lanes of an outstanding instruction that may leave, once its walk has ended or stopped (R150): a load at once, a store or
atomic once the loads and atomics before it are performed (R247), an STL once everything before it is performed at sys scope (R145); none before an earlier access of
its location, or past a FENCE. -/
def State.trySend (s : State) (t g id : Nat) : State :=
  match s.teams.find? t with
  | none => s
  | some T => match T.groups.find? g with
    | none => s
    | some G => match G.op? id with
      | none => s
      | some o =>
        let accs := o.accs.filter fun a => a.fab && !a.sent
        let isLoad := o.kind.isLoad
        let waits (a : LaneAcc) : Bool := s.fenced t g G a.ord isLoad || G.unsentBefore o a ||
          (!isLoad && G.loadsBefore (o.place a.ord)) || match o.kind with
            | .store (some _) => !s.releaseReady t g G id 5
            | _ => false
        if accs.isEmpty || G.walking id && !s.tableStuck T.core || accs.any waits then s
        else
          let (type, size, code) := match o.kind with
            | .load n _ _ => (0, n, 0)
            | .atomic c true => (4, 4, c)
            | .atomic c false => (6, 4, c)
            | _ => (2, 4, 0)
          let s := s.sendLanes t g id (s.fctxOf T) type size code accs
          s.modGroup t g fun G => G.modOp id fun o =>
            { o with accs := o.accs.map fun a => if a.fab then { a with sent := true } else a }

end Sys2Proof.Machine
end

