-- ==== Sys2Proof/Machine/Sync.lean ====
section
/-! DEFINITION. Barriers, fences and the waits of a split (R120 to R125). -/
namespace Sys2Proof.Machine

/-! ### Barriers (R120 to R122) -/

/-- A barrier when its team or cluster starts (R120). -/
def Barrier.empty : Barrier := ⟨0, 0, 0, [], [], []⟩

/-- The key under which a group keeps the phase of its latest arrival (R121). -/
def barKey (clu : Bool) (n : Nat) : Nat := if clu then 16 + n else n

/-- The groups of a team that have not retired. -/
def Team.live (T : Team) : List Nat := (T.groups.filter fun g => !g.2.retired).map Prod.fst

/-- A phase with arrivals whose count has reached its target completes (R120). -/
def Barrier.complete (b : Barrier) (arrived all : Nat) : Barrier :=
  if arrived ≠ 0 ∧ (if b.target = 0 then all else b.target) ≤ arrived then { Barrier.empty with phase := b.phase + 1 } else b

/-- The phases of a team's barriers that can complete do so. -/
def Team.settleBars (T : Team) : Team :=
  { T with bars := List.map (fun (b : Nat × Barrier) => (b.1, b.2.complete b.2.count T.live.length)) T.bars }

/-- An arrival of the group has been recorded in the phase that ends when `phase` begins: the splits that wait on it wait for that (R121). -/
def Group.recorded (G : Group) (a : Arrival) (phase : Nat) : Group :=
  let on (e : Split) : Split := if e.wait = .arrival a.tok then { e with wait := .barrier a.clu a.n phase } else e
  let all (l : SMap Split) : SMap Split := List.map (fun (e : Nat × Split) => (e.1, on e.2)) l
  { G with phases := G.phases.insert (barKey a.clu a.n) phase, splits := all G.splits
           saved := G.saved.map fun x => { x with splits := all x.splits } }

/-- Record a team arrival of a group: it counts once in a phase, and the first names the target (R120, R121). -/
def Team.arrive (T : Team) (t g : Nat) (a : Arrival) : Team :=
  let b := T.bars.getD a.n Barrier.empty
  let T := T.modGroup g fun G => G.recorded a (b.phase + 1)
  if b.groups.contains (t, g) then T
  else
    let b' : Barrier :=
      { b with target := if b.groups = [] then a.count else b.target, groups := b.groups ++ [(t, g)], count := b.count + 1 }
    Team.settleBars { T with bars := T.bars.insert a.n b' }

/-- A team arrives at a cluster barrier once all its live groups have (R121); it carries the count named last, also where a retirement
completes it (log entry 63). -/
def Barrier.teamArrives (b : Barrier) (t : Nat) (live : List Nat) : Barrier :=
  if !b.teams.contains t && b.groups.any (fun x => x.1 == t) && live.all fun g => b.groups.contains (t, g) then
    { b with target := if b.teams = [] then b.named.getD t 0 else b.target, teams := b.teams ++ [t] }
  else b

/-- The teams of a cluster that have not retired. -/
def State.liveTeams (s : State) (c : Cluster) : List Nat :=
  c.teams.filter fun t => match s.teams.find? t with | some T => T.st != .retired | none => false

/-- Team arrivals and completed phases of one cluster barrier. -/
def State.settleBar (s : State) (c : Cluster) (b : Barrier) : Barrier :=
  let live := s.liveTeams c
  let b := live.foldl (fun b t => b.teamArrives t (((s.teams.find? t).map Team.live).getD [])) b
  b.complete b.teams.length live.length

/-- Every cluster barrier of a launch; the first phase that completes in a cluster opens its sibling pads (R122). -/
def State.settleClusters (s : State) (l : Nat) (L : Launch) : State :=
  L.clusters.foldl (fun s c =>
    let bars := List.map (fun (b : Nat × Barrier) => (b.1, s.settleBar c.2 b.2)) c.2.bars
    if bars = c.2.bars then s
    else
      let passed := bars.any fun b => b.2.phase != 0
      let s := { s with launches := s.launches.modify l fun L =>
        { L with clusters := L.clusters.modify c.1 fun x => { x with bars := bars } } }
      if passed then c.2.teams.foldl (fun s t => s.modTeam t fun T => { T with seenCluster := true }) s else s) s

/-- Complete every barrier phase that can complete; a retirement may have lowered a target (R120). -/
def State.settleBarriers (s : State) : State :=
  let s := { s with teams := List.map (fun (t : Nat × Team) => (t.1, t.2.settleBars)) s.teams }
  s.launches.foldl (fun s l => s.settleClusters l.1 l.2) s

/-- Record an arrival (R122). -/
def State.arrive (s : State) (t g : Nat) (a : Arrival) : State :=
  if a.clu then
    match s.teams.find? t with
    | none => s
    | some T =>
      match (s.launches.find? T.launch).bind fun L => L.clusters.find? T.cix with
      | none => s
      | some c =>
        let b := c.bars.getD a.n Barrier.empty
        let s := s.modGroup t g fun G => G.recorded a (b.phase + 1)
        if b.groups.contains (t, g) then s
        else
          let b := { b with groups := b.groups ++ [(t, g)], named := b.named.insert t a.count }
          let L := { c with bars := c.bars.insert a.n b }
          { s with launches := s.launches.modify T.launch fun x => { x with clusters := x.clusters.insert T.cix L } }
  else s.modTeam t fun T => T.arrive t g a

/-- The phase a barrier is in. -/
def State.phaseOf (s : State) (T : Team) (clu : Bool) (n : Nat) : Nat :=
  let bars := if clu then (((s.launches.find? T.launch).bind fun L => L.clusters.find? T.cix).map Cluster.bars).getD [] else T.bars
  (bars.getD n Barrier.empty).phase

/-- What BARW waits for (R121): the group's latest arrival at the barrier, recorded or not; nothing where it never arrived. -/
def Group.barWait (G : Group) (clu : Bool) (n : Nat) : Wait :=
  match (G.arrive.filter fun a => a.clu == clu && a.n == n).getLast? with
  | some a => .arrival a.tok
  | none => .barrier clu n (G.phases.getD (barKey clu n) 0)

/-- Issue an arrival: it is recorded once the group's earlier accesses are performed (R122, R249). -/
def Issuer.arrival (c : Issuer) (clu : Bool) (n count : Nat) (s : State) : State :=
  s.modGroup c.tid c.gid fun g => { g with arrive := g.arrive ++ [⟨clu, n, count, g.nextOp, s.issues⟩] }

/-- R121. -/
def execBar (b : BitVec 6) (s : Bool) (n : BitVec 4) (r : State) : Res :=
  withIssuer r fun c => c.finishWait (.arrival r.issues) (c.arrival s n.toNat b.toNat r)
/-- R121. -/
def execBara (b : BitVec 6) (s : Bool) (n : BitVec 4) (r : State) : Res :=
  withIssuer r fun c => c.finish (c.arrival s n.toNat b.toNat r)
/-- R121. -/
def execBarw (s : Bool) (n : BitVec 4) (r : State) : Res :=
  withIssuer r fun c => c.finishWait (c.grp.barWait s n.toNat) r

/-! ### Fences and waits -/

/-- The scope at which an arrival's release holds: team or cluster (R122). -/
def Arrival.scope (a : Arrival) : Nat := if a.clu then 2 else 1

/-- R123: kinds acq, rel, acqrel, sc; sc drains the write buffers at every scope. -/
def execFence (k : BitVec 2) (c : BitVec 3) (s : State) : Res :=
  withIssuer s fun i =>
    i.finishWait (.fence (k != 1) (k != 0) (if k = 3 then max 1 c.toNat else c.toNat) i.grp.nextOp) s

/-- Read a word at its coherence point for an instruction at issue: its value, poison as ECC, or what the access meets. -/
def State.readWord (s : State) (c : Issuer) (a : Dword) : Except Met Word × State :=
  match c.reach s a.toNat accRead with
  | (.hit k, s) => if s.poisoned k 4 then (.error (.fault .ecc), s) else (.ok (bytesWord (s.bytes k 4)), s.readMem k 4)
  | (m, s) => (.error m, s)

/-- R124. -/
def execWaitm (a b : BitVec 6) (imm : BitVec 9) (s : State) : Res :=
  groupWord [a.toNat, a.toNat + 1, b.toNat] [] s fun c =>
    let addr := c.grp.spair a.toNat
    let x := c.grp.sreg b.toNat
    if windowOf addr.toNat = 4 then c.raise .xlat s
    else if addr &&& 3 ≠ 0 then c.raise .align s
    else if 2 ≤ windowOf addr.toNat then c.raise .prot s
    else match s.readWord c addr with
      | (.error m, s) => c.meet m s
      | (.ok w, s) =>
        if w ≠ x then c.finish s
        else
          let limit := if imm = 0 then none else some (s.now + ticksOfCycles (1024 * imm.toNat))
          c.finishWait (.monitor addr.toNat x limit s.now) s

/-- A group whose splits may issue: of a running team whose records are replayed (R287); of a halting one within its skid (R278); the
handler of a core (R281). -/
def State.groupIssues (s : State) (t : Nat) (T : Team) (g : Nat) (G : Group) : Bool :=
  match T.st with
  | .running => !T.replay
  | .halting f => g != f && 0 < G.skidLeft
  | .halted => !T.replay && !T.debug && T.handling == some g && T.cause.isNone && (s.core T.core).handler == some t
  | _ => false

/-- The groups of a core that may issue and have a READY split, but for one. -/
def State.readyOthers (s : State) (core t g : Nat) : List (Nat × Nat) :=
  s.teams.flatMap fun T => if T.2.core = core then
    (T.2.groups.filter fun G => !(T.1 == t && G.1 == g) && G.2.ready && s.groupIssues T.1 T.2 G.1 G.2).map fun G => (T.1, G.1) else []

/-- R125. -/
def execYield (s : State) : Res :=
  withIssuer s fun c =>
    c.finishWait (.yield (s.readyOthers c.team.core c.tid c.gid) (s.issues + 1) (s.now + ticksOfCycles 64)) s

/-- R125: SLEEP 0 does nothing. -/
def execSleep (imm : BitVec 9) (s : State) : Res :=
  withIssuer s fun c =>
    if imm = 0 then c.finish s else c.finishWait (.sleep (s.now + ticksOfCycles (1024 * imm.toNat))) s

end Sys2Proof.Machine
end

