-- ==== Sys2Proof/Machine/Sysreg.lean ====
section
/-! DEFINITION. Special registers, FMT, hearth registers, snapshots, RESUME and SYSCALL (R25, R126 to R131, R220, R282, R283). -/
namespace Sys2Proof.Machine

/-! ### Special registers -/

/-- TIX (R25). -/
def State.tix (s : State) (T : Team) : Word :=
  let (w, h) := ((s.launches.find? T.launch).map fun L => (L.width, L.height)).getD (1, 1)
  BitVec.ofNat 32 (T.tx + 16 * T.ty + 65536 * w + 1048576 * h)

/-- The address of the launch descriptor, below 4 GiB (R25, R264). -/
def State.launchReg (s : State) (T : Team) : Word := BitVec.ofNat 32 (((s.launches.find? T.launch).map Launch.desc).getD 0)

/-- PADB, in 64-byte units (R25). -/
def Team.padb (T : Team) : Word := BitVec.ofNat 32 (T.padBase % 65536 + 65536 * (T.padSize / 64))

/-- The halt record's splits: those of the program, set aside while the handler runs (R282). -/
def Group.program (g : Group) : SMap Split :=
  match g.saved with
  | none => g.splits
  | some x => x.splits

/-- HPC (R282): the PC of the lowest-numbered FROZEN split, 0 where there is none. -/
def Group.hpc (g : Group) : Dword :=
  ((List.find? (fun (e : Nat × Split) => e.2.st == .frozen) g.program).map fun e => e.2.pc).getD 0

/-- HSKID (R282). -/
def Group.hskid (g : Group) : Word :=
  BitVec.ofNat 32 (g.haltSkid % 256 + 256 * (g.haltCause % 256) + 65536 * (!g.pending.isEmpty).toNat)

/-- The group that HGSEL selects, where it has a halt record (R282). -/
def Issuer.selected (c : Issuer) : Option Group :=
  match c.team.groups.find? (c.grp.hgsel.toNat % 32) with
  | some g => if g.retired then none else some g
  | none => none

/-- The resume PC of the handled split (R282). -/
def Saved.rpc (x : Saved) (fpc : Dword) : Dword := resumePc x.splits x.handled fpc

/-- The selected lane of the interrupted program (R220): name and lane. -/
def Group.tvName (g : Group) : Nat := fld g.tvsel.toNat 0 6
def Group.tvLane (g : Group) : Nat := fld g.tvsel.toNat 8 5

/-- An outstanding kind-L write of the interrupted program to a name (R220). A stopped instruction of which nothing is on its way writes no
more until RESUME: the handler does not wait for it (R66, log entry 63). -/
def Group.tvBusy (g : Group) (n : Nat) : Bool := g.ops.any fun o => !o.handler && o.dests.contains n && !g.unstarted o

/-- The unprivileged numbers that a GETSR reads (R25), CLK and CLKH apart. -/
def State.special (s : State) (c : Issuer) (n : Nat) : Option Word :=
  let g := c.grp
  match n with
  | 0x000 => some c.spl.act
  | 0x001 => some (c.spl.fmt.setWidth 32)
  | 0x002 => some g.fr.flt
  | 0x003 => some g.fr.pix
  | 0x004 => some g.fr.skid
  | 0x005 => some (loWord g.fr.fpc)
  | 0x006 => some (hiWord g.fr.fpc)
  | 0x007 => some g.fr.fcause
  | 0x008 => some g.brd
  | 0x009 => some g.scv
  | 0x00A => some g.jto
  | 0x00B => some (BitVec.ofNat 32 c.gid)
  | 0x00C => some (s.tix c.team)
  | 0x00D => some (loWord (BitVec.ofNat 64 c.team.cix))
  | 0x00E => some (hiWord (BitVec.ofNat 64 c.team.cix))
  | 0x00F => some (s.launchReg c.team)
  | 0x010 => some g.alive
  | 0x011 => some c.team.padb
  | 0x012 => some (loWord (BitVec.ofNat 64 s.cycles))
  | 0x013 => some g.clkh
  | 0x020 => some (BitVec.ofNat 32 g.mctx)
  | 0x021 => some (BitVec.ofNat 32 g.cctx)
  | 0x022 => some (BitVec.ofNat 32 g.gctx)
  | _ => none

/-- The privileged numbers that a handler's GETSR reads (R220, R282), TVDAT apart. -/
def Issuer.privSpecial (c : Issuer) (x : Saved) (n : Nat) : Option Word :=
  let f := c.grp.fr
  match n with
  | 0x100 => some c.grp.tvsel
  | 0x101 => some ((x.v.getD c.grp.tvName VReg.zero).lane c.grp.tvLane)
  | 0x102 => some c.grp.hgsel
  | 0x103 => some (loWord (((c.selected).map Group.hpc).getD 0))
  | 0x104 => some (hiWord (((c.selected).map Group.hpc).getD 0))
  | 0x105 => some (((c.selected).map Group.hskid).getD 0)
  | 0x106 => some (loWord (x.rpc f.fpc))
  | 0x107 => some (hiWord (x.rpc f.fpc))
  | 0x108 => some (loWord f.fopn)
  | 0x109 => some (hiWord f.fopn)
  | 0x10A => some f.fopc
  | 0x10B => some (loWord f.faddr)
  | 0x10C => some (hiWord f.faddr)
  | 0x10D => some (f.fit.getD 0 0)
  | 0x10E => some (f.fit.getD 1 0)
  | 0x10F => some (f.fit.getD 2 0)
  | 0x110 => some (f.fit.getD 3 0)
  | 0x111 => some (f.fit.getD 4 0)
  | _ => none

/-- S(a) := x, then the next instruction. -/
def Issuer.put (c : Issuer) (a : Nat) (x : Word) (s : State) : State :=
  c.finish (s.modGroup c.tid c.gid fun g => g.setS a x)

/-- R126, R25, R282. -/
def execGetsr (a : BitVec 6) (n : BitVec 9) (s : State) : Res :=
  groupWord [] [a.toNat] s fun c =>
    if n.toNat < 0x100 then
      match s.special c n.toNat with
      | none => c.raise .illegal s
      | some x =>
        -- reading CLK latches its high word
        let s := if n = 0x012 then s.modGroup c.tid c.gid fun g => { g with clkh := hiWord (BitVec.ofNat 64 s.cycles) } else s
        c.put a.toNat x s
    else match c.grp.saved with
      | none => c.raise .priv s
      | some x =>
        if n = 0x101 ∧ c.grp.tvBusy c.grp.tvName then c.stall s
        else if n = 0x101 ∧ (x.v.getD c.grp.tvName VReg.zero).bad.getLsbD c.grp.tvLane then c.raise .ecc s
        else match c.privSpecial x n.toNat with
          | none => c.raise .illegal s
          | some w => c.put a.toNat w s

/-- The interrupted split continues at a new PC (R282): the remaining lanes of the instruction that stopped at the fault and of those it had
issued after it, its waits and the faults not yet delivered are dropped. -/
def Group.setRpc (g : Group) (x : Saved) (pc : Dword) : Group :=
  let redo (e : Split) : Split :=
    { e.setWalks (e.walks.takeWhile fun p => p.pc != g.fr.fpc) with
      pc := pc, wait := .none, mark := none, back := if e.back = .blocked then .ready else e.back }
  let quiet (o : LOp) : LOp := if o.id < x.firstOp then { o with faults := [] } else o
  let x' : Saved := { x with splits := x.splits.modify x.handled redo, held := [] }
  let fr' : FaultRegs := { g.fr with pix := 0 }
  Group.sweep { g with saved := some x', ops := g.ops.map quiet, fr := fr' }

/-- Write a lane of the interrupted program in place (R220). -/
def Saved.putLane (x : Saved) (name lane : Nat) (w : Word) : Saved :=
  { x with v := x.v.modify name fun r => r.write (Mask.one lane) fun _ => w }

/-- SETSR of a privileged number in a handler, its value checked (R220, R282). -/
def Issuer.setPriv (c : Issuer) (x : Saved) (n : Nat) (w : Word) (s : State) : State :=
  let grp (f : Group → Group) : State := c.finish (s.modGroup c.tid c.gid f)
  let save (f : Saved → Saved) : State := grp fun g => { g with saved := g.saved.map f }
  match n with
  | 0x100 => grp fun g => { g with tvsel := w }
  | 0x101 =>
    if c.grp.tvBusy c.grp.tvName then c.stall s
    else save fun x => x.putLane c.grp.tvName c.grp.tvLane w
  | 0x102 => grp fun g => { g with hgsel := w }
  | 0x106 => c.finish (s.modGroup c.tid c.gid fun g => g.setRpc x (pair x.rpch w))
  | 0x107 => save fun x => { x with rpch := w }
  | _ => c.raise .illegal s

/-- SETSR of EXM (R126, R31): lanes are set aside; a child left without active lanes arrives, a handler whose undivided split is has ended as
by EXIT (R280). The last lanes of a group first wait as at EXIT's marker (log entry 63). -/
def Issuer.setExm (c : Issuer) (w : Word) (s : State) : State :=
  let act := c.spl.act &&& w
  if act = 0 ∧ c.spl.parent = c.sid ∧ c.grp.privileged then (c.count s).failTeam c.tid (c.grp.fr.fcause.toNat % 256)
  else if act = 0 ∧ c.spl.parent = c.sid ∧ c.lastLanes then c.retry (.exitMarker c.grp.nextOp) s
  else ((c.finish s).modSplit c.tid c.gid c.sid fun e => { e with act := act }).settle c.tid c.gid

/-- The ILLEGAL or PRIV that a SETSR of this value meets (R25, R26, R220, R282). -/
def Issuer.setBad (c : Issuer) (n : Nat) (w : Word) : Option Cause :=
  let bad (b : Bool) : Option Cause := if b then some .illegal else none
  if n < 0x100 then
    match n with
    | 0x000 | 0x008 | 0x00A => none
    | 0x001 => bad (w >>> 16 != 0)
    | 0x009 => bad (w &&& 0xFFFFC0C0#32 != 0)
    | _ => some .illegal
  else match c.grp.saved with
    | none => some .priv
    | some x => match n with
      | 0x100 => bad (w &&& 0xFFFFE0C0#32 != 0)
      | 0x101 => bad (!c.grp.tvBusy c.grp.tvName && (x.v.find? c.grp.tvName).isNone)
      | 0x102 => bad (w &&& 0xFFFFFFE0#32 != 0)
      | 0x106 => bad (w &&& 3 != 0)
      | 0x107 => none
      | _ => some .illegal

/-- R126, R25, R26, R282. -/
def execSetsr (a : BitVec 6) (n : BitVec 9) (s : State) : Res :=
  groupWordAfter (fun c => c.setBad n.toNat (c.grp.sreg a.toNat)) [a.toNat] [] s fun c =>
    let w := c.grp.sreg a.toNat
    let grp (f : Group → Group) : State := c.finish (s.modGroup c.tid c.gid f)
    if n.toNat < 0x100 then
      match n.toNat with
      | 0x000 => c.setExm w s
      | 0x001 => c.finish (s.modSplit c.tid c.gid c.sid fun e => { e with fmt := w.setWidth 16 })
      | 0x008 => grp fun g => { g with brd := w }
      | 0x009 => grp fun g => { g with scv := w }
      | 0x00A => grp fun g => { g with jto := w }
      | _ => c.raise .illegal s
    else match c.grp.saved with
      | none => c.raise .priv s
      | some x => c.setPriv x n.toNat w s

/-- R127. -/
def execFmtw (a : BitVec 6) (s : State) : Res :=
  groupWordAfter (fun c => if c.grp.sreg a.toNat >>> 16 = 0 then none else some .illegal) [a.toNat] [] s fun c =>
    let w := c.grp.sreg a.toNat
    c.finish (s.modSplit c.tid c.gid c.sid fun e => { e with fmt := w.setWidth 16 })

/-- R127. -/
def execFmtwRm (r : BitVec 3) (s : State) : Res :=
  withIssuer s fun c =>
    c.finish (s.modSplit c.tid c.gid c.sid fun e => { e with fmt := e.fmt.extractLsb' 3 13 ++ r })

/-! ### Hearth registers (R24, R128) -/

/-- A hearth register, zero and free until claimed. -/
def Team.hearthReg (T : Team) (h : Nat) : Hearth := T.hearth.getD h ⟨0, none, (0, 0)⟩

/-- Change a hearth register. -/
def State.setHearth (s : State) (t h : Nat) (x : Hearth) : State :=
  s.modTeam t fun T => { T with hearth := T.hearth.insert h x }

/-- The cycle of its core in which the issuing group's group word issues (R274). -/
def State.issueCycle (s : State) (c : Issuer) : Nat :=
  let x := s.core c.team.core
  if x.begins c.tid c.gid true then s.issues + 1 else x.cycle

/-- A group of a higher index has claimed a free hearth register in this very cycle (R24). -/
def State.claimsFirst (s : State) (c : Issuer) (x : Hearth) (g : Nat) : Bool := c.gid < g && x.claim.1 == s.issueCycle c

/-- R128. Of two groups that claim a free register in one cycle the lower index becomes its owner, and the other waits (R24). -/
def execHclaim (h : BitVec 4) (s : State) : Res :=
  withIssuer s fun c =>
    let x := c.team.hearthReg h.toNat
    let claim (s : State) : State := c.finish (s.setHearth c.tid h.toNat { x with owner := some c.gid, claim := (s.issueCycle c, c.sid) })
    match x.owner with
    | none => claim s
    | some g =>
      if g = c.gid then c.finish s
      else if s.claimsFirst c x g then
        claim (s.modSplit c.tid g x.claim.2 fun e => { e with wait := .hclaim h.toNat, st := if e.st = .ready then .blocked else e.st })
      else c.retry (.hclaim h.toNat) s
/-- R128. -/
def execHrel (h : BitVec 4) (s : State) : Res :=
  withIssuer s fun c =>
    let x := c.team.hearthReg h.toNat
    if x.owner = some c.gid then c.finish (s.setHearth c.tid h.toNat { x with owner := none }) else c.raise .hown s
/-- R128, R24. -/
def execHwr (a : BitVec 6) (h : BitVec 4) (s : State) : Res :=
  groupWord [a.toNat] [] s fun c =>
    let x := c.team.hearthReg h.toNat
    if x.owner = some c.gid then c.finish (s.setHearth c.tid h.toNat { x with val := c.grp.sreg a.toNat }) else c.raise .hown s
/-- R128. -/
def execHrd (a : BitVec 6) (h : BitVec 4) (s : State) : Res :=
  groupWord [] [a.toNat] s fun c => c.put a.toNat (c.team.hearthReg h.toNat).val s

/-! ### Snapshots, RESUME, SYSCALL -/

/-- R129, R290. -/
def execSnap (s : State) : Res := withIssuer s fun c => c.finish (s.trigger c.team.space)

/-- R130, R283. -/
def execResume (s : State) : Res :=
  withIssuer s fun c => if c.grp.privileged then (c.count s).resumeTeam c.tid else c.raise .illegal s

/-- The 64-byte service record (R131). -/
def State.serviceRecord (s : State) (c : Issuer) (code : Nat) : List Byte :=
  natBytes 4 (code + 65536 * c.gid + 2 ^ 31) ++ wordBytes (s.tix c.team) ++ natBytes 8 c.team.cix
    ++ (List.range 8).flatMap (fun i => wordBytes (c.grp.sreg i)) ++ natBytes 16 0

/-- R131: PRIV without a ring or with a full one (R65: before the ECC of a source); the record releases the group's earlier accesses at sys
scope (R249). -/
def execSyscall (imm : BitVec 9) (s : State) : Res :=
  let ring (c : Issuer) : Option Ctx := (s.ctxs.find? c.team.space).filter fun x => x.ring != 0
  withIssuer s fun c =>
    match ring c with
    | none => c.raise .priv s
    | some x =>
      let slot := x.ring.toNat + 64 * (x.ringNext % max 1 x.entries)
      if (List.range 8).any c.grp.sComing then c.stall s
      else match s.reachAs c.declined c.team.space slot accWrite true c.team.core (.split c.tid c.gid c.sid) with
        | (.hit k, s) =>
          if fld (s.nat k 4) 31 1 = 1 then c.raise .priv s
          else if (List.range 8).any c.grp.sbad.contains then c.raise .ecc s
          else if [0, 1].any c.grp.sBusy then c.stall s
          else if !s.allDone c.tid c.gid c.grp c.grp.nextOp 5 then c.retry (.settle c.grp.nextOp) s
          else
            let s := s.store k (s.serviceRecord c imm.toNat)
            let s := { s with ctxs := s.ctxs.modify c.team.space fun x => { x with ringNext := x.ringNext + 1 } }
            c.finishWait (.syscall slot) s
        | (m, s) => c.meet m s

end Sys2Proof.Machine
end

