-- ==== Sys2Proof/Machine/GroupEvents.lean ====
section
/-! DEFINITION. Events that end a split's wait: markers, timed joins, rendezvous limits, WAITM, SLEEP, YIELD, SYSCALL (R68, R104,
R117, R124, R125, R131). A limit of time that an event names has passed when the event happens. -/
namespace Sys2Proof.Machine

/-- A split whose condition holds goes on, unless its marker still parks it; a FROZEN one will when it is thawed. -/
def Split.go (e : Split) : Split :=
  if e.wait = .none ∧ e.mark.isNone then
    { e with st := if e.st = .blocked then .ready else e.st, back := if e.back = .blocked then .ready else e.back }
  else e

/-- The wait of a split is over. -/
def Split.release (e : Split) : Split := { e with wait := .none }.go

/-- The split's marker is reached. -/
def Split.unmark (e : Split) : Split :=
  (match e.wait with
    | .exitMarker _ => { e with wait := .none, mark := none }
    | _ => { e with mark := none }).go

/-- Time is not before d. -/
def State.reachTime (s : State) (d : Nat) : State := { s with now := max s.now d }

/-- An event about a split of a team on a core. -/
def splitEvent (name : String) (s : State) (f : Nat → Nat → Nat → Team → Group → Split → Res) : Res :=
  match s.ev with
  | .split t g i =>
    match s.teams.find? t with
    | none => notNow name
    | some T =>
      if !T.here then notNow name
      else match T.groups.find? g with
        | none => notNow name
        | some G => match G.splits.find? i with
          | none => notNow name
          | some e => f t g i T G e
  | _ => notNow name

/-- R68, R69, R136: the kind-L work up to the marker is complete; a held fault is delivered there, else the split goes on. -/
def execMarkerRelease (s : State) : Res :=
  splitEvent "MARKER_RELEASE" s fun t g i _ G e =>
    match e.marker with
    | none => notNow "MARKER_RELEASE"
    | some upto =>
      if e.st != .blocked || G.awaits upto then notNow "MARKER_RELEASE"
      else match G.dueFault upto with
        | some f =>
          let s := s.modGroup t g fun G => { G with held := G.held.filter fun x => !(x.op == f.op && x.cause == f.cause) }
          .next (s.deliver t g { f with split := i })
        | none => .next (s.modSplit t g i Split.unmark)

/-- R117. -/
def execJointTimeout (s : State) : Res :=
  splitEvent "JOINT_TIMEOUT" s fun t g i T G e =>
    match e.timer with
    | none => notNow "JOINT_TIMEOUT"
    | some d =>
      if e.st != .parent || T.holds G then notNow "JOINT_TIMEOUT"
      else .next ((s.reachTime d).modGroup t g fun G => G.timeout false i e)

/-- MEMBER at a waiting split (R104), which arrives again when it is resumed. -/
def State.raiseMember (s : State) (t g i : Nat) (G : Group) (pc : Dword) (lanes : Mask) : State :=
  let s := s.modSplit t g i fun e => { e with wait := .none, st := .ready }
  s.deliver t g
    { op := 0, split := i, pc := pc, cause := .member, lanes := lanes, detail := 0, addr := 0, pix := 0, issue := G.issued,
      held := false, opn := 0, opc := 0, fit := [] }

/-- R104: JTO cycles have passed since the first arrival. -/
def execMemberTimeout (s : State) : Res :=
  splitEvent "MEMBER_TIMEOUT" s fun t g i _ G e =>
    match e.wait with
    | .member pc mm _ since jto =>
      if jto = 0 ∨ e.st ≠ .blocked ∨ G.executing pc mm then notNow "MEMBER_TIMEOUT"
      else
        let away := (G.memberSet i mm).filter fun x => x.2.memberAt != some (pc, mm)
        .next ((s.reachTime (since + ticksOfCycles jto)).raiseMember t g i G pc (heldLanes mm away))
    | _ => notNow "MEMBER_TIMEOUT"

/-- The WAITM of a parked split meets its address's miss or fault (R124): it is issued again. -/
def State.waitmAgain (s : State) (t g i : Nat) (pc : Dword) (w : Wait) (st : SplitSt) : State :=
  s.modSplit t g i fun e => { e with pc := pc, mark := none, wait := w, st := st }

/-- R124: the word is read again at its coherence point; where it still has the expected value, the limit has passed. -/
def execWaitmWake (s : State) : Res :=
  splitEvent "WAITM_WAKE" s fun t g i T G e =>
    match e.wait with
    | .monitor addr x limit _ =>
      let pc := e.pc - 4
      let pass : Res := match limit with
        | some d => .next ((s.reachTime d).modSplit t g i Split.release)
        | none => notNow "WAITM_WAKE"
      if e.st != .blocked then notNow "WAITM_WAKE"
      else match s.reach T.space addr accRead G.privileged T.core (.split t g i) with
        | (.hit k, s) =>
          let s := s.readMem k 4
          if s.poisoned k 4 then pass
          else if bytesWord (s.bytes k 4) ≠ x then .next (s.modSplit t g i Split.release) else pass
        | (.parked tok, s) => .next (s.waitmAgain t g i pc (.walk tok) .blocked)
        | (.fault cause, s) =>
          .next ((s.waitmAgain t g i pc .none .ready).deliver t g
            { op := 0, split := i, pc := pc, cause := cause, lanes := e.act, detail := 0, addr := 0, pix := 0, issue := G.issued,
              held := false, opn := 0, opc := 0, fit := [] })
    | _ => notNow "WAITM_WAKE"

/-- R125. -/
def execSleepExpiry (s : State) : Res :=
  splitEvent "SLEEP_EXPIRY" s fun t g i _ _ e =>
    match e.wait with
    | .sleep d => .next ((s.reachTime d).modSplit t g i Split.release)
    | _ => notNow "SLEEP_EXPIRY"

/-- R125: the other groups have issued, or 64 cycles have passed. -/
def execYieldExpiry (s : State) : Res :=
  splitEvent "YIELD_EXPIRY" s fun t g i _ _ e =>
    match e.wait with
    | .yield others since limit =>
      let waits := others.any fun o => match s.group? o.1 o.2 with
        | some G => !G.retired && G.lastIssue ≤ since
        | none => false
      .next ((if waits then s.reachTime limit else s).modSplit t g i Split.release)
    | _ => notNow "YIELD_EXPIRY"

/-- R131: the done flag is seen; s0 and s1 take the result words. -/
def execSyscallDone (s : State) : Res :=
  splitEvent "SYSCALL_DONE" s fun t g i T G e =>
    match e.wait with
    | .syscall slot =>
      match s.translate T.space slot .read true with
      | .hit k =>
        if fld (s.nat (k + 56) 4) 0 1 = 0 || G.sBusy 0 || G.sBusy 1 then notNow "SYSCALL_DONE"
        else
          let x := bytesWord (s.bytes (k + 48) 4)
          let y := bytesWord (s.bytes (k + 52) 4)
          .next ((s.modGroup t g fun G => (G.setS 0 x).setS 1 y).modSplit t g i Split.release)
      | _ => notNow "SYSCALL_DONE"
    | _ => notNow "SYSCALL_DONE"

end Sys2Proof.Machine
end

