-- ==== Sys2Proof/Machine/Engine.lean ====
section
/-! DEFINITION. Engine contexts: numbering, timelines, the tile scoreboard, completion and failure (R153 to R158, R161), and the
instructions on futures (R190 to R193). -/
namespace Sys2Proof.Machine

/-! ### Contexts and futures -/

/-- The identifier after one: of 24 bits, never 0 (R20, R154). -/
def nextId (n : Nat) : Nat := if n + 1 < 2 ^ 24 then n + 1 else 1

/-- What a context belongs to is still there, or work on it is. -/
def State.ctxLives (s : State) (id : Nat) : Bool :=
  match s.ectxs.find? id with
  | none => false
  | some x => !x.pend.isEmpty || match x.owner with
    | .matrix t _ | .copy t _ | .gather t _ => (s.teams.find? t).any fun T => T.st != .retired
    | .fabric => (s.fab.ctxs.find? id).isSome
    -- a session's identifier is never given again (R362)
    | .encoder _ => true
    | .queue q => (s.queues.find? q).any fun Q => Q.ectx == id
    | .launch => (s.launches.find? id).any fun L => !L.complete

/-- The first identifier from n on whose context no longer lives. -/
def State.freeId (s : State) : Nat → Nat → Nat
  | 0, n => n
  | k + 1, n => if s.ctxLives n then s.freeId k (nextId n) else n

/-- A new engine context (R153, R154): its identifier, the next in turn that is free (log entry 64), and the state that holds it. -/
def State.newCtx (s : State) (owner : CtxOwner) (space : Nat) : Nat × State :=
  let id := s.freeId (s.ectxs.length + 1) s.nextCtx
  (id, { s with
    ectxs := s.ectxs.insert id ⟨owner, space, 0, 0, [], [], []⟩
    nextCtx := nextId id })

def State.modCtx (s : State) (id : Nat) (f : ECtx → ECtx) : State := { s with ectxs := s.ectxs.modify id f }

/-- Numbers of futures are kept modulo 2^40 (R154). -/
def futureMod : Nat := 2 ^ 40

/-- a is at or below b in the window of R157. -/
def atOrBelow (a b : Nat) : Bool := (b % futureMod + futureMod - a % futureMod) % futureMod < futureMod / 2

/-- Operation n of a context is complete (R157). -/
def ECtx.passed (x : ECtx) (n : Nat) : Bool := atOrBelow n x.counter

/-- A future is complete (R157). -/
def State.futureDone (s : State) (c n : Nat) : Bool :=
  c == 0 || match s.ectxs.find? c with
    | some x => x.passed n
    | none => true

/-- The lowest unreported failure at or below a threshold (R158). -/
def ECtx.failureTo (x : ECtx) (n : Nat) : Option FailRec :=
  (x.failed.filter fun f => atOrBelow f.num n).foldl (fun b f => match b with
    | none => some f
    | some g => if f.num < g.num then some f else b) none

/-- A group may wait on a context (R158, R266): of its address space those of groups and encoder sessions, those of other launches, and
its own launch's fabric context. -/
def State.mayWait (s : State) (T : Team) (c : Nat) : Bool :=
  match s.ectxs.find? c with
  | none => false
  | some x => match x.owner with
    | .fabric => c == s.fctxOf T
    | .encoder _ | .matrix _ _ | .copy _ _ | .gather _ _ => x.space == T.space
    | .launch => x.space == T.space && c != T.launch
    | .queue _ => false

/-- The counter passes every number that is complete (R156). -/
def advance : Nat → Nat → List Nat → Nat × List Nat
  | 0, k, d => (k, d)
  | n + 1, k, d => if d.contains (k + 1) then advance n (k + 1) (d.filter fun x => x != k + 1) else (k, d)

/-- Operation n is complete. -/
def ECtx.finish (x : ECtx) (n : Nat) : ECtx :=
  let (k, d) := advance (x.done.length + 1) x.counter (setInsert x.done n)
  { x with counter := k, done := d, pend := x.pend.filter fun o => o.num != n }

/-- An operation fails (R156): it is unreported until a wait delivers it. -/
def ECtx.fail (x : ECtx) (n : Nat) (cause : Cause) (addr : Nat) (iters : List Nat) : ECtx :=
  { x.finish n with failed := x.failed ++ [⟨n, cause, addr, iters⟩] }

/-- Every operation of an engine context that is not complete, with its context. -/
def State.eops (s : State) : List (Nat × EOp) := s.ectxs.flatMap fun c => c.2.pend.map fun o => (c.1, o)

def State.eop? (s : State) (c n : Nat) : Option EOp := (s.ectxs.find? c).bind fun x => x.pend.find? fun o => o.num == n

def State.modEop (s : State) (c n : Nat) (f : EOp → EOp) : State :=
  s.modCtx c fun x => { x with pend := x.pend.map fun o => if o.num = n then f o else o }

/-- An operation of a hardware queue: it belongs to no team and no core (R262). -/
def ECmd.ofQueue : ECmd → Bool
  | .copy _ _ _ => true
  | _ => false

/-- The team of an operation is not switched out (R203). -/
def State.opHere (s : State) (o : EOp) : Bool := o.cmd.ofQueue || match s.teams.find? o.team with
  | some T => T.st != .out false && T.st != .out true
  | none => true

/-! ### The tile scoreboard (R161) -/

/-- A weight-buffer entry beside the slots. -/
def entryName (e : Nat) : Nat := 256 + e

/-- The B operand an MMA names. -/
def bName (wb : Bool) (b : Nat) : Nat := if wb then entryName b else b

/-- The slots and entries a command writes. -/
def ECmd.writes : ECmd → List Nat
  | .tzero d | .mma d _ _ _ _ _ _ _ _ _ | .tscale d _ _ | .tnorm d _ _ | .trowred d _ _ | .tew d _ _ _ _ _ _ | .vtot d _ _ _ _
  | .sigq d _ _ _ _ _ => [d]
  | .tcomp d _ b _ | .tsoft d _ b _ _ _ => [d, b]
  | .tld t _ _ _ => [t]
  | .wbld e _ _ _ _ => [entryName e]
  | .gath k v m _ _ _ _ _ _ => [k, v, m]
  | _ => []

/-- The slots and entries a command reads. -/
def ECmd.reads : ECmd → List Nat
  | .mma _ a b wb m _ _ _ _ _ => [a, bName wb.isSome b] ++ m.toList
  | .tcomp _ a _ _ | .trowred _ a _ | .tsoft _ a _ _ _ _ => [a]
  | .tscale _ a b => a.toList ++ [b]
  | .tnorm _ a b | .sigq _ a b _ _ _ => [a, b]
  | .tew _ a b _ form _ _ => if form = 3 then [a] else [a, b]
  | .tst t _ _ _ => [t]
  | .kvapp _ _ (.tiles k v) => [k, v]
  | .rpub _ _ a r => [a, r]
  | _ => []

def ECmd.names (c : ECmd) : List Nat := c.writes ++ c.reads

/-- Two operations conflict (R161). -/
def ECmd.conflicts (x y : ECmd) : Bool :=
  x.writes.any (fun n => y.names.contains n) || y.writes.any fun n => x.names.contains n

/-- A TTOV or TSTAT outstanding on a core that reads a slot and was issued before a place in the core's order (R161). -/
def State.tileReader (s : State) (core slot ord : Nat) : Bool :=
  s.teams.any fun t => t.2.core == core && t.2.here && t.2.groups.any fun g => g.2.ops.any fun o => match o.kind with
    | .ttov _ sl _ n _ => sl == slot && n < ord
    | .tstat _ sl _ n => sl == slot && n < ord
    | _ => false

/-- An operation of a core issued before a place in its order satisfies p; a switched-out team's operations have left the core. -/
def State.earlierOp (s : State) (core ord : Nat) (p : EOp → Bool) : Bool :=
  s.ectxs.any fun c => c.2.pend.any fun o => o.core == core && o.ord < ord && s.opHere o && p o

/-- The scoreboard lets an operation start (R161). -/
def State.scoreboard (s : State) (o : EOp) : Bool :=
  o.cmd.names.isEmpty || !(s.earlierOp o.core o.ord (fun x => x.cmd.conflicts o.cmd) ||
    o.cmd.writes.any fun n => s.tileReader o.core n o.ord)

/-! ### Issue (R155) -/

/-- A context cannot number another operation now (R154). -/
def ECtx.full (x : ECtx) : Bool := 64 ≤ (x.pend.filter fun o => !o.running).length || 2 ^ 39 ≤ x.issued + 1 - x.counter

/-- The group of a COLL (R348, R351). -/
def ECmd.collGroup : ECmd → Option Nat
  | .coll _ _ _ _ grp => some grp
  | _ => none

/-- Number a command on a context: its number, and the state that holds the operation. A COLL takes its group's next number with it (R351). -/
def State.number (s : State) (ctx : Nat) (T : Team) (tid gid upto : Nat) (cmd : ECmd) : Nat × State :=
  match s.ectxs.find? ctx with
  | none => (0, s)
  | some x =>
    let n := x.issued + 1
    let seq := (cmd.collGroup.bind s.fab.colls.find?).getD 0
    let s := match cmd.collGroup with
      | some grp => if s.groupOk ctx grp then { s with fab := { s.fab with colls := s.fab.colls.insert grp (seq + 1) } } else s
      | none => s
    let o : EOp :=
      { num := n, cmd := cmd, space := T.space, team := tid, grp := gid, core := T.core, ord := s.nextOrd, upto := upto,
        running := false, prog := 0, sent := seq, back := 0, got := [], since := 0, wait := [], declined := false, pins := [], failure := none, pack := none
        packFrom := none, kept := none, gather := none, barred := false }
    (n, { s.modCtx ctx fun x => { x with issued := n, pend := x.pend ++ [o] } with nextOrd := s.nextOrd + 1 })

/-- A future (R154). -/
def future (ctx n : Nat) : Dword := BitVec.ofNat 64 (ctx * futureMod + n % futureMod)

/-- Issue a kind-E command (R154, R155): BLOCKED while the context can number nothing, else numbered, its future written. -/
def Issuer.engine (c : Issuer) (ctx : Nat) (q : Option Nat) (cmd : ECmd) (s : State) : State :=
  match s.ectxs.find? ctx with
  | none => c.raise .prot s
  | some x =>
    if x.full then c.retry (.ctxFull ctx) s
    else
      let (n, s) := s.number ctx c.team c.tid c.gid c.grp.nextOp cmd
      match q with
      | none => c.finish s
      | some r => c.finish (s.modGroup c.tid c.gid fun g => g.setQ r (future ctx n))

/-! ### Completion (R156, R157) -/

/-- A tile slot of a core. -/
def State.slot? (s : State) (core n : Nat) : Option TileSlot := (s.core core).tiles.find? n

def State.modSlot (s : State) (core n : Nat) (f : TileSlot → TileSlot) : State :=
  s.modCore core fun c => { c with tiles := c.tiles.modify n f }

/-- An operation has failed on the slots it names (R165). -/
def State.markFailed (s : State) (o : EOp) : State :=
  o.cmd.names.foldl (fun s n => if n < 256 then s.modSlot o.core n fun t => { t with failed := true } else s) s

/-- The blocks an operation pinned are free of its pins (R300). -/
def State.unpin (s : State) (o : EOp) : State :=
  { s with ctxs := s.ctxs.modify o.space fun x =>
      { x with pins := o.pins.foldl (fun p b => SMap.put 0 p b (SMap.getD p b 0 - 1)) x.pins } }

/-- A WBLD that is over gives its entry to the saved operations of other teams that follow it (R203). -/
def State.passPack (s : State) (ctx : Nat) (o : EOp) : State := match o.cmd with
  | .wbld e _ _ _ _ =>
    let give (x : EOp) : EOp :=
      if x.packFrom = some (ctx, o.num) then { x with pack := (s.core o.core).weights.find? e, packFrom := none } else x
    { s with ectxs := List.map (fun (c : Nat × ECtx) => (c.1, { c.2 with pend := c.2.pend.map give })) s.ectxs }
  | _ => s

/-- An operation completes, done. -/
def State.doneOp (s : State) (ctx : Nat) (o : EOp) : State := ((s.unpin o).passPack ctx o).modCtx ctx fun x => x.finish o.num

/-- An operation completes, failed. -/
def State.failOp (s : State) (ctx : Nat) (o : EOp) (cause : Cause) (addr : Nat) (iters : List Nat) : State :=
  (((s.unpin o).markFailed o).passPack ctx o).modCtx ctx fun x => x.fail o.num cause addr iters

/-! ### Futures (R190 to R193) -/

/-- The identifier and number of a future. -/
def futureCtx (q : Dword) : Nat := fld q.toNat 40 24
def futureNum (q : Dword) : Nat := fld q.toNat 0 40

/-- The threshold of a wait: the future's number less the lag (R191). -/
def threshold (q : Dword) (lag : Nat) : Nat := (futureNum q + futureMod - lag) % futureMod

/-- R190. -/
def execBatch (q : BitVec 4) (e : BitVec 2) (s : State) : Res :=
  withIssuer s fun c =>
    let ctx := match e.toNat with | 0 => c.grp.mctx | 1 => c.grp.cctx | _ => c.grp.gctx
    let n := ((s.ectxs.find? ctx).map ECtx.issued).getD 0
    c.finish (s.modGroup c.tid c.gid fun g => g.setQ q.toNat (future ctx n))

/-- R191, R158: blocked until the threshold is complete; FUTURE reports the lowest failure at or below it. -/
def execWaittl (q : BitVec 4) (l : BitVec 6) (s : State) : Res :=
  withIssuer s fun c =>
    let f := c.grp.qreg q.toNat
    let ctx := futureCtx f
    let n := threshold f l.toNat
    if ctx = 0 then c.finish s
    else if !s.mayWait c.team ctx then c.raise .prot s
    -- while it is BLOCKED it is no outstanding instruction for a sibling split's marker (log entry 63)
    else if !s.futureDone ctx n then c.retry (.future ctx n) s
    else match (s.ectxs.find? ctx).bind fun x => x.failureTo n with
      | none => c.finish s
      | some r =>
        let s := s.modCtx ctx fun x => { x with failed := x.failed.filter fun y => y.num != r.num }
        s.deliver c.tid c.gid
          { c.record .future c.spl.act with
            detail := r.cause.num, addr := BitVec.ofNat 64 r.addr, opn := future ctx r.num
            opc := BitVec.ofNat 32 (r.cause.num + 256 * r.iters.length), fit := r.iters.map (BitVec.ofNat 32) }

/-- R191: 0 not complete, 1 complete, 2 complete with an unreported failure. -/
def execTesttl (q : BitVec 4) (a : BitVec 6) (l : BitVec 6) (s : State) : Res :=
  groupWord [] [a.toNat] s fun c =>
    let f := c.grp.qreg q.toNat
    let ctx := futureCtx f
    let n := threshold f l.toNat
    let put (x : Word) : State := c.finish (s.modGroup c.tid c.gid fun g => g.setS a.toNat x)
    if ctx = 0 then put 1
    else if !s.mayWait c.team ctx then c.raise .prot s
    else if !s.futureDone ctx n then put 0
    else put (if ((s.ectxs.find? ctx).bind fun x => x.failureTo n).isSome then 2 else 1)

/-- R192: what has not started of a context, up to a number, completes cancelled. -/
def State.cancel (s : State) (ctx n : Nat) : State :=
  match s.ectxs.find? ctx with
  | none => s
  | some x => (x.pend.filter fun o => !o.running && atOrBelow o.num n).foldl (fun s o => s.doneOp ctx o) s

/-- R192. -/
def execCancel (q : BitVec 4) (s : State) : Res :=
  withIssuer s fun c =>
    let f := c.grp.qreg q.toNat
    let ctx := futureCtx f
    if ctx = 0 then c.finish s
    else if [c.grp.mctx, c.grp.cctx, c.grp.gctx, s.fctxOf c.team].contains ctx then c.finish (s.cancel ctx (futureNum f))
    else c.raise .prot s

/-- R193. -/
def execQmov (q : BitVec 4) (a : BitVec 6) (n : BitVec 4) (f : BitVec 2) (s : State) : Res :=
  match f.toNat with
  | 0 =>
    groupWord [a.toNat, a.toNat + 1] [] s fun c =>
      c.finish (s.modGroup c.tid c.gid fun g => g.setQ q.toNat (c.grp.spair a.toNat))
  | 1 =>
    groupWord [] [a.toNat, a.toNat + 1] s fun c =>
      c.finish (s.modGroup c.tid c.gid fun g => g.setPair a.toNat (c.grp.qreg q.toNat))
  | _ => withIssuer s fun c => c.finish (s.modGroup c.tid c.gid fun g => g.setQ q.toNat (c.grp.qreg n.toNat))

end Sys2Proof.Machine
end

