-- ==== Sys2Proof/Machine/EngineMem.lean ====
section
/-! DEFINITION. Memory accesses of engines and of the package's own units, as a computation that may meet a miss or a failure (R156,
R237, R366). -/
namespace Sys2Proof.Machine

/-- Why a piece of work stops: a miss that the sector controller must settle, or a failure with its address (R156, R282). -/
inductive Stop where
  | miss (va code : Nat) (prot : Bool)
  | fail (cause : Cause) (addr : Nat)

/-- Work on the state that may stop; the state at the stop is kept. -/
abbrev Work (α : Type) := EStateM Stop State α

/-- Who works: the address space and core its accesses go through, whether the driver has declined its miss, and whether they are accesses
from that core (R240). -/
structure Agent where
  space : Nat
  core : Nat
  declined : Bool
  counted : Bool

def EOp.agent (o : EOp) : Agent := ⟨o.space, o.core, o.declined, !o.cmd.ofQueue⟩

/-- The work failed. -/
def failW {α : Type} (cause : Cause) (addr : Nat) : Work α := throw (.fail cause addr)

/-- Translate one address (R237); a fabric window is not memory (R134). -/
def reachW (a : Agent) (va code : Nat) : Work Nat := do
  let s ← get
  let final := a.declined || match s.ctxs.find? a.space with | some c => c.fatal | none => true
  if windowOf va = 4 then failW .xlat va
  else if 2 ≤ windowOf va then failW .prot va
  else
    modify fun s => s.readWalk a.space va
    match s.translate a.space va (accessOf code) false with
    | .hit k => pure k
    | .hard => failW .prot va
    | .ecc => failW .ecc va
    | .miss => if final then failW .xlat va else throw (.miss va code false)
    | .prot => if final then failW .prot va else throw (.miss va code true)

/-- Cut n bytes at va into parts that lie in one page each: address and length. -/
def pageParts : Nat → Nat → Nat → List (Nat × Nat)
  | 0, _, _ => []
  | k + 1, va, n =>
    if n = 0 then []
    else
      let p := min n (65536 - va % 65536)
      (va, p) :: pageParts k (va + p) (n - p)

/-- The keys of n bytes, part by part; the lines are counted for migration (R240). -/
def keysW (a : Agent) (va n code : Nat) : Work (List (Nat × Nat)) :=
  (pageParts (n / 65536 + 2) va n).mapM fun p => do
    let k ← reachW a p.1 code
    if a.counted then modify fun s => s.countLines a.core k ((k + p.2 + 63) / 64 - k / 64) else pure ()
    pure (k, p.2)

/-- Parts of memory are read: their single-bit errors are corrected (R243). -/
def State.readParts (s : State) (ks : List (Nat × Nat)) : State := ks.foldl (fun (s : State) k => s.readMem k.1 k.2) s

/-- Read n bytes with the flag that a word of them is poisoned. -/
def readRawW (a : Agent) (va n : Nat) : Work (List Byte × Bool) := do
  let ks ← keysW a va n accEngineRead
  modify fun s => s.readParts ks
  let s ← get
  pure (ks.flatMap fun k => s.bytes k.1 k.2, ks.any fun k => s.poisoned k.1 k.2)

/-- Read n bytes; poison fails (R366). -/
def readW (a : Agent) (va n : Nat) : Work (List Byte) := do
  let (bs, bad) ← readRawW a va n
  if bad then failW .ecc va else pure bs

/-- A little-endian number in memory. -/
def natW (a : Agent) (va n : Nat) : Work Nat := do
  let bs ← readW a va n
  pure (bytesNat bs)

/-- The memory key of an offset into parts. -/
def partAt : List (Nat × Nat) → Nat → Option Nat
  | [], _ => none
  | p :: ps, off => if off < p.2 then some (p.1 + off) else partAt ps (off - p.2)

/-- Mark the words at these offsets of parts as poisoned. -/
def State.taintAt (s : State) (ks : List (Nat × Nat)) (offs : List Nat) : State :=
  offs.foldl (fun (s : State) o => match partAt ks o with
    | some k => s.taint (k / 8)
    | none => s) s

/-- Write bytes over parts. -/
def State.putParts : State → List (Nat × Nat) → List Byte → State
  | s, [], _ => s
  | s, p :: ps, bs => State.putParts (s.store p.1 (bs.take p.2)) ps (bs.drop p.2)

/-- Write bytes. -/
def writeW (a : Agent) (va : Nat) (bs : List Byte) : Work Unit := do
  let ks ← keysW a va bs.length accEngineWrite
  modify fun s => s.putParts ks bs

/-- The parts of a write that a record needs; an uncorrectable error in a word of them bars it (R367). -/
def cleanW (a : Agent) (va n : Nat) : Work (List (Nat × Nat)) := do
  let ks ← keysW a va n accEngineWrite
  let s ← get
  if ks.any fun k => s.poisoned k.1 k.2 then failW .ecc va else pure ks

/-- Write an event record in full, then advance its index from k (R302, R350); where either write is impossible, neither is made (R367). -/
def recordW (a : Agent) (va index k : Nat) (bs : List Byte) : Work Unit := do
  let xs ← cleanW a va bs.length
  let ys ← cleanW a index 4
  modify fun s => (s.putParts xs bs).putParts ys (natBytes 4 ((k + 1) % 2 ^ 32))

/-- Copy equally long lists of parts with their poison (R366). -/
def State.copyParts : Nat → State → List (Nat × Nat) → List (Nat × Nat) → State
  | 0, s, _, _ => s
  | n + 1, s, (x, i) :: xs, (y, j) :: ys =>
    let k := min i j
    let rest (a m : Nat) (l : List (Nat × Nat)) : List (Nat × Nat) := if m = k then l else (a + k, m - k) :: l
    State.copyParts n (s.copyBytes x y k) (rest x i xs) (rest y j ys)
  | _, s, _, _ => s

/-- Copy n bytes: the source is translated first, then the destination (R185). -/
def copyW (a : Agent) (src dst n : Nat) : Work Unit := do
  let xs ← keysW a src n accEngineRead
  let ys ← keysW a dst n accEngineWrite
  modify fun s => State.copyParts (2 * (xs.length + ys.length)) (s.readParts xs) xs ys

/-- Bytes that hold zeros and no poison from now on (R242). -/
def State.zeroBytes (s : State) (key n : Nat) : State :=
  { s with
    mem := s.mem.filter fun c => !(key ≤ c.1 && c.1 < key + n)
    l1 := dropLines s.l1 key n
    poison := s.poison.filter fun w => !(key ≤ 8 * w && 8 * w < key + n)
    latent := s.latent.filter fun w => !(key ≤ 8 * w && 8 * w < key + n) }

/-- How a piece of work ends: done, parked under a token with nothing of it done, or failed with what it did before. -/
inductive Ended (α : Type) where
  | done (x : α) (s : State)
  | parked (token : Nat) (s : State)
  | failed (cause : Cause) (addr : Nat) (s : State)

/-- Run a piece of work that goes on after a miss from where it stopped (R300). -/
def runKept {α : Type} (s : State) (a : Agent) (ref : WalkRef) (w : Work α) : Ended α :=
  match w.run s with
  | .ok x s => .done x s
  | .error (.fail cause addr) s => .failed cause addr s
  | .error (.miss va code prot) s =>
    let (t, s) := s.park a.space va code prot (sectorOf a.core) ref
    .parked t s

/-- Run a piece of work; a miss is parked and reported (R237, R319), and nothing of the work is done. -/
def runWork {α : Type} (s : State) (a : Agent) (ref : WalkRef) (w : Work α) : Ended α :=
  match w.run s with
  | .ok x s => .done x s
  | .error (.fail cause addr) s => .failed cause addr s
  | .error (.miss va code prot) _ =>
    let (t, s) := s.park a.space va code prot (sectorOf a.core) ref
    .parked t s

end Sys2Proof.Machine
end

