-- ==== Sys2Proof/Machine/MemEvents.lean ====
section
/-! DEFINITION. What becomes of kind-L work after issue: walks, loads, stores, atomics, pad accesses and unit results, each
performed by an event under the order rules of R140, R144, R145, R147, R247 and R248. -/
namespace Sys2Proof.Machine

/-! ### Atomics (R146) -/

/-- The value an atomic leaves. -/
def atomicNew (code : Nat) (old x c : Word) : Word :=
  match code with
  | 0 => old + x
  | 1 => BitVec.ofNat 32 (fp32.enc 0 (FV.add 0 (f32 old) (f32 x)))
  | 2 => eachHalf (fun a b => bf16.enc 0 (FV.add 0 (bf16.dec a) (bf16.dec b))) old x
  | 3 => if old.slt x then x else old
  | 4 => if old.ult x then x else old
  | 5 =>
    let a := old &&& 0x7FFFFFFF#32
    let b := x &&& 0x7FFFFFFF#32
    if fp32.isNaN a.toNat || fp32.isNaN b.toNat then 0x7FC00000#32 else if a.ult b then b else a
  | 6 => if x.slt old then x else old
  | 7 => if x.ult old then x else old
  | 8 => old &&& x
  | 9 => old ||| x
  | 10 => old ^^^ x
  | 11 => x
  | 12 => if old = c then x else old
  | _ => if x.ult old || x == old then 0 else old + 1

/-- An atomic is applied at a word (R146, R245): the old value, and the state after. At host memory only add.i32, swap and cas are one
operation there; between the read and the write of another the host's stores may come (R241). -/
def State.applyAtomic (s : State) (key code : Nat) (x c : Word) : Word × State :=
  let old := bytesWord (s.bytes key 4)
  let s := if hostKey ≤ key && code != 0 && code != 11 && code != 12 then s.hostArrives else s
  (old, s.store key (wordBytes (atomicNew code old x c)))

/-! ### Walks (R236, R237, R284) -/

/-- Put a store into the buffer, which stands in program order (R140). -/
def bufferIn (b : Buffered) : List Buffered → List Buffered
  | [] => [b]
  | x :: xs => if x.ord < b.ord || x.ord == b.ord && x.lane ≤ b.lane then x :: bufferIn b xs else b :: x :: xs

/-- A store or reduction enters the write buffer (R139, R140); a lower lane of the instruction gives up the bytes it shares with a higher
one, buffered or already performed (R138). -/
def Group.buffer (g : Group) (o : LOp) (a : LaneAcc) (key : Nat) (red release : Option Nat) : Group :=
  let mine := a.data.zipIdx.map fun b => (key + b.2, b.1)
  let taken (k : Nat) : Bool := (g.wbuf.any fun b => b.id == o.id && a.lane < b.lane && b.bytes.any fun x => x.1 == k) ||
    o.shadow.any fun x => a.lane < x.1 && x.2 == k
  let mine := if red.isSome then mine else mine.filter fun x => !taken x.1
  let cut (b : Buffered) : Buffered :=
    if b.id = o.id ∧ b.lane < a.lane ∧ red.isNone then { b with bytes := b.bytes.filter fun x => !mine.any fun y => y.1 == x.1 }
    else b
  { g with wbuf := bufferIn ⟨o.id, a.lane, a.part, a.ord, o.mask, o.handler, bankOf a.ea, o.pc, a.ea, o.issue, mine, red, release⟩ (g.wbuf.map cut) }

/-- Set lane k's accesses. -/
def LOp.modLane (o : LOp) (k : Nat) (f : LaneAcc → LaneAcc) : LOp := { o with accs := o.accs.map fun b => if b.lane = k then f b else b }

/-- Lane k's walk has found its key: a load or atomic holds it, a store enters the buffer, where an STL above grp scope is not yet
complete (R139, R246). -/
def State.landLane (s : State) (t g id k key : Nat) (o : LOp) : State :=
  let mine := o.accs.filter fun b => b.lane == k
  let at_ (b : LaneAcc) : Nat := key + 8 * b.part
  let enter (red release : Option Nat) : State :=
    s.modGroup t g fun G => mine.foldl (fun (G : Group) b => G.buffer o b (at_ b) red release) G
  match o.kind with
  | .store rel =>
    match rel.filter (· != 0) with
    | none => (enter none none).modOp t g id fun o => o.dropLane k
    | some sc => (enter none (some sc)).modOp t g id fun o => o.modLane k fun b => { b with key := some (at_ b) }
  | .atomic code false => (enter (some code) none).modOp t g id fun o => o.dropLane k
  | _ => s.modOp t g id fun o => o.modLane k fun b => { b with key := some (at_ b) }

/-- Serviced misses of a group are walked again in the order of their issue (R284). -/
def Group.replayBefore (g : Group) (a : LaneAcc) : Bool :=
  a.replay && g.ops.any fun x => x.accs.any fun b => b.replay && b.key.isNone && b.token.isNone &&
    (b.ord < a.ord || b.ord == a.ord && b.lane < a.lane)

/-- An STL of grp scope enters the buffer once what is before it is performed at that scope (R145, R246). -/
def State.heldBack (s : State) (t g : Nat) (G : Group) (o : LOp) : Bool := match o.kind with
  | .store (some 0) => !s.releaseReady t g G o.id 0
  | _ => false

/-- R236: the walk of one lane's access. -/
def execTranslationWalk (s : State) : Res :=
  match s.ev with
  | .walk (.lane t g id k) =>
    match s.acc? t g id k with
    | none => notNow "TRANSLATION_WALK"
    | some (T, G, o, a) =>
      if a.key.isSome || a.pad.isSome || a.fab || a.token.isSome || o.kind.isView || G.replayBefore a || s.heldBack t g G o then
        notNow "TRANSLATION_WALK"
      else
        -- behind a parked entry of the same line (R284)
        let ahead := G.ops.findSome? fun x => if x.id < id then
          x.accs.findSome? fun b => if b.token.isSome ∧ b.ea.toNat / 64 = a.ea.toNat / 64 then b.token else none else none
        let park (s : State) (tok : Nat) : State := s.modOp t g id fun o => o.modLane k fun b => { b with token := some tok }
        match ahead with
        | some tok => .next { park s tok with parked := s.parked.modify tok fun p => { p with refs := p.refs ++ [.lane t g id k] } }
        | none =>
          let code := if o.kind.isLoad then accRead else match o.kind with | .atomic _ _ => accAtomic | _ => accWrite
          let (m, s) := (s.readWalk T.space a.ea.toNat).reachAs a.declined T.space a.ea.toNat code o.handler T.core (.lane t g id k)
          match m with
          | .fault cause => .next (s.modOp t g id fun o => o.faultLane k cause a.ea)
          | .parked tok => .next (park s tok)
          | .hit key =>
            -- one count for each line of the instruction (R240); what a load reads counts where it misses the L1
            let line (x : Nat) : Bool := x / 64 == a.ea.toNat / 64
            let counted := (o.accs.any fun b => b.lane != k && b.key.isSome && line b.ea.toNat) ||
              G.wbuf.any fun b => b.id == id && line b.ea.toNat
            .next ((if counted || o.kind.isLoad then s else s.count T.core key).landLane t g id k key o)
  | _ => notNow "TRANSLATION_WALK"

/-! ### Unit and divider results (R81, R109) -/

/-- R81: one lane's result; SDIVN's quotient (R109). -/
def execLongLatencyResult (s : State) : Res :=
  match s.ev with
  | .lane t g id k =>
    match (s.group? t g).bind fun G => G.op? id with
    | some o => match o.kind, o.res.find? fun r => r.1 == k with
      | .unit, some r =>
        .next (s.modOp t g id fun o => { (o.giveLane k r.2 false) with res := o.res.filter fun r => r.1 != k })
      | _, _ => notNow "LONG_LATENCY_RESULT"
    | none => notNow "LONG_LATENCY_RESULT"
  | .op t g id =>
    match (s.group? t g).bind fun G => G.op? id with
    | some o => match o.kind with
      | .sdiv d q =>
        if (s.group? t g).any fun G => G.ops.any fun x => x.id < id && x.sdests.contains d then notNow "LONG_LATENCY_RESULT"
        else .next (s.modGroup t g fun G => ({ G with ops := G.ops.filter fun x => x.id != id }.setS d q).sweep)
      | _ => notNow "LONG_LATENCY_RESULT"
    | none => notNow "LONG_LATENCY_RESULT"
  | _ => notNow "LONG_LATENCY_RESULT"

/-! ### Pads (R142 to R144) -/

/-- Bytes of a pad, and writing them; a pad word of 8 bytes written in full loses its poison. -/
def Team.padBytes (T : Team) (off n : Nat) : List Byte := (List.range n).map fun i => T.pad.getD (off + i) 0
def Team.padWrite (T : Team) (off : Nat) (bs : List Byte) : Team :=
  { T with
    pad := (bs.zipIdx).foldl (fun m b => SMap.put 0 m (off + b.2) b.1) T.pad
    padBad := T.padBad.filter fun w => !(off ≤ 8 * w && 8 * w + 8 ≤ off + bs.length) }
def Team.padPoisoned (T : Team) (off n : Nat) : Bool := (wordsOf off n).any fun w => T.padBad.contains w

/-- An own-pad access waits for the group's earlier own-pad accesses (R144); any pad store or atomic for earlier loads and atomics, and a
sibling's pad obeys R247. -/
def Group.padWaits (g : Group) (t : Nat) (o : LOp) (a : LaneAcc) : Bool :=
  (!o.kind.isLoad && g.loadsBefore (o.place a.ord)) ||
    if a.pad = some t then
      g.unsentAt LKind.isPad a.ord || g.ops.any fun x => x.id != o.id && x.accs.any fun b => b.pad == some t && b.ord < a.ord
    else
      g.ops.any fun x => x.accs.any fun b =>
        (x.place b.ord).before (o.place a.ord) && b.pad == a.pad && meets b.ea.toNat b.size a.ea.toNat a.size

/-- A higher lane of this pad store that is still to be sent may write the same word (R138). -/
def Group.padHigher (g : Group) (o : LOp) (a : LaneAcc) : Bool :=
  g.walking o.id && o.coming.any fun x => a.lane < x.1 && x.2.toNat / 16 == a.ea.toNat / 16

/-- Lower lanes of one atomic at one location come first (R147). -/
def LOp.lowerFirst (o : LOp) (a : LaneAcc) : Bool :=
  o.accs.any fun b => b.lane < a.lane &&
    if a.pad.isSome then b.pad == a.pad && b.ea == a.ea else b.mayMeet a.ea a.key a.size

/-- The pad a lane reaches: none when its team has retired, which the target refuses; a switched-out team's pad stalls (R142,
R287). -/
def State.padOf (s : State) (a : LaneAcc) : Option (Nat × Option Team) :=
  match a.pad with
  | none => none
  | some p => match s.teams.find? p with
    | none => some (p, none)
    | some P => match P.st with
      | .out _ => none
      | .retired => some (p, none)
      | _ => some (p, some P)

/-- A refused sibling access (R142, R143): the lane is switched off and performs nothing, a load leaving it as a faulted lane. -/
def State.refuseLane (s : State) (t g id k : Nat) : State :=
  let s := s.modOp t g id fun o => { o.dropLane k with wrote := o.wrote &&& ~~~Mask.one k }
  (s.modGroup t g fun G => { G with padFault := G.padFault ||| Mask.one k }).leave t g (Mask.one k)

/-- R139: a pad store's word is written, or the sibling core's refusal returns. -/
def execPadWordWritten (s : State) : Res :=
  match s.ev with
  | .lane t g id k =>
    match s.acc? t g id k with
    | some (_, G, o, a) =>
      if o.kind ≠ .padStore ∨ G.padWaits t o a ∨ G.padHigher o a ∨ s.fenced t g G a.ord false then notNow "PAD_WORD_WRITTEN"
      else match s.padOf a with
        | none => notNow "PAD_WORD_WRITTEN"
        | some (_, none) => .next (s.refuseLane t g id a.lane)
        | some (p, some _) => .next (((s.overPad p a.ea.toNat a.data.length).modTeam p fun P => P.padWrite a.ea.toNat a.data).modOp t g id fun o => o.dropAcc k)
    | none => notNow "PAD_WORD_WRITTEN"
  | _ => notNow "PAD_WORD_WRITTEN"

/-! ### Loads (R137) -/

/-- The words a load writes from its bytes (R137). -/
def loadWords (size : Nat) (signed : Bool) (bs : List Byte) : List Word :=
  let x := bytesNat bs
  if size < 4 then
    [if signed && fld x (8 * size - 1) 1 == 1 then BitVec.ofNat 32 (x + 2 ^ 32 - 2 ^ (8 * size)) else BitVec.ofNat 32 x]
  else (List.range (size / 4)).map fun i => BitVec.ofNat 32 (fld x (32 * i) 32)

/-- A load waits: for an earlier access of its location that is not performed or not in the buffer, for a store whose bytes a higher lane may
still replace, or for a FENCE (R123, R138, R247). -/
def State.loadWaits (s : State) (t g : Nat) (G : Group) (o : LOp) (a : LaneAcc) (key : Nat) : Bool :=
  a.fab || G.sameBefore (o.place a.ord) a.ea key a.size ||
    G.buffered (fun b => b.id != o.id && b.ord < a.ord && (b.red.isSome || G.higherComing b)) key a.size || s.fenced t g G a.ord true

/-- R137: the data of a load's lane return, or of one half of it (R244): from memory, from the group's own buffer (R140), or from a pad. -/
def execLoadDataReturn (s : State) : Res :=
  match s.ev with
  | .lane t g id k =>
    match s.acc? t g id k with
    | some (T, G, o, a) =>
      match o.kind with
      | .load _ signed _ =>
        match a.key with
        | none => notNow "LOAD_DATA_RETURN"
        | some key =>
          if s.loadWaits t g G o a key then notNow "LOAD_DATA_RETURN"
          else
            let fw := G.forward id a.ord key a.size
            let s := if fw.length = a.size then s else (s.readMem key a.size).readLine T.core key
            let bs := (List.range a.size).map fun i => fw.getD (key + i) (s.byte (key + i))
            let bad := (List.range a.size).any fun i => (fw.find? (key + i)).isNone && s.poisoned (key + i) 1
            .next (s.modOp t g id fun o => (o.dropAcc k).giveFrom (2 * a.part) a.lane (loadWords a.size signed bs) bad)
      | .padLoad _ =>
        if G.padWaits t o a || s.fenced t g G a.ord true then notNow "LOAD_DATA_RETURN"
        else match s.padOf a with
          | none => notNow "LOAD_DATA_RETURN"
          | some (_, none) => .next (s.refuseLane t g id a.lane)
          | some (p, some P) =>
            let s := s.readPad p a.ea.toNat a.size
            let ws := loadWords a.size false (P.padBytes a.ea.toNat a.size)
            .next (s.modOp t g id fun o => (o.dropAcc k).giveFrom (2 * a.part) a.lane ws (P.padPoisoned a.ea.toNat a.size))
      | _ => notNow "LOAD_DATA_RETURN"
    | none => notNow "LOAD_DATA_RETURN"
  | _ => notNow "LOAD_DATA_RETURN"

/-! ### Atomics returning their old value -/

/-- An atomic waits for the lower lanes of its location, for earlier loads and atomics, for earlier stores of its location, or for a FENCE
(R147, R247, R123). -/
def State.atomicWaits (s : State) (t g : Nat) (G : Group) (o : LOp) (a : LaneAcc) (key : Nat) : Bool :=
  a.fab || o.lowerFirst a || G.loadsBefore (o.place a.ord) || G.sameBefore (o.place a.ord) a.ea key 4 ||
    G.buffered (fun b => b.place.before (o.place a.ord)) key 4 || s.fenced t g G a.ord false

/-- R146: an ATOMG or ATOMP lane is applied at its location's coherence point and its old value returns. -/
def execAtomicResultReturn (s : State) : Res :=
  match s.ev with
  | .lane t g id k =>
    match s.acc? t g id k with
    | some (_, G, o, a) =>
      match o.kind with
      | .atomic code true =>
        match a.key with
        | none => notNow "ATOMIC_RESULT_RETURN"
        | some key =>
          if s.atomicWaits t g G o a key then notNow "ATOMIC_RESULT_RETURN"
          else if s.poisoned key 4 then .next (s.modOp t g id fun o => o.faultLane a.lane .ecc a.ea)
          else
            let (old, s) := (s.readMem key 4).applyAtomic key code (bytesWord a.data) a.cmp
            .next (s.modOp t g id fun o => (o.dropAcc k).giveLane a.lane [old] false)
      | .padAtomic code =>
        if G.padWaits t o a || o.lowerFirst a || s.fenced t g G a.ord false then notNow "ATOMIC_RESULT_RETURN"
        else match s.padOf a with
          | none => notNow "ATOMIC_RESULT_RETURN"
          | some (_, none) => .next (s.refuseLane t g id a.lane)
          | some (p, some P) =>
            let off := a.ea.toNat
            if P.padPoisoned off 4 then .next (s.modOp t g id fun o => o.faultLane a.lane .ecc a.ea)
            else
              let old := bytesWord (P.padBytes off 4)
              let s := (s.readPad p off 4).modTeam p fun P => P.padWrite off (wordBytes (atomicNew code old (bytesWord a.data) a.cmp))
              .next (s.modOp t g id fun o => (o.dropAcc k).giveLane a.lane [old] false)
      | _ => notNow "ATOMIC_RESULT_RETURN"
    | none => notNow "ATOMIC_RESULT_RETURN"
  | _ => notNow "ATOMIC_RESULT_RETURN"

/-! ### Buffered stores (R140) -/

/-- Earlier stores of a buffered store's bank, of any split, come first (R140): those in the buffer, those on their way to it, and those whose
lanes are still to be sent. -/
def Group.bankFirst (G : Group) (b : Buffered) : Bool :=
  (G.wbuf.any fun x => x.id != b.id && x.ord < b.ord && x.red.isNone && x.bank == b.bank) ||
    G.ops.any fun x => x.id != b.id && (x.kind.isStore && !x.kind.isPad) && match x.kind with
      | .atomic _ _ => false
      | _ => (x.accs.any fun a => a.ord < b.ord && !a.fab && a.key.isNone && bankOf a.ea == b.bank) ||
          (x.coming.any fun y => bankOf y.2 == b.bank) && G.anyWalk fun p => p.op == some x.id && p.ord.getD x.id < b.ord

/-- A buffered store may be performed: its instruction is walked, no higher lane may still replace its bytes (R138), earlier loads and atomics
of program order are performed, and earlier stores of its bank or its location (R140, R247); a reduction after the lower lanes of its location
(R147); an STL after everything before it at its scope (R145); none past a FENCE (R123). -/
def State.mayPerform (s : State) (t g : Nat) (G : Group) (b : Buffered) : Bool :=
  let same (x : Buffered) : Bool := x.bytes.any fun u => b.bytes.any fun v => u.1 / 4 == v.1 / 4
  let key := b.bytes.head?.map Prod.fst
  let walked := match G.op? b.id with
    | some o => (o.accs.all fun a => a.key.isSome || a.token.isSome || a.fab) &&
        (b.red.isNone || o.accs.all fun a => !(a.lane < b.lane && a.mayMeet b.ea key 4))
    | none => true
  let earlier := G.wbuf.any fun x => x.place.before b.place && same x
  let coming := G.ops.any fun x => (x.kind.isStore && !x.kind.isPad) &&
    x.accs.any fun a => (x.place a.ord).before b.place && a.key.isNone && a.mayMeet b.ea key (b.bytes.length)
  let lower := b.red.isNone || G.wbuf.all fun x => !(x.id == b.id && x.lane < b.lane && same x)
  let rel := match b.release with
    | none => true
    | some sc => s.releaseReady t g G b.id sc
  walked && !G.higherComing b && !earlier && !coming && !(b.red.isNone && G.bankFirst b) && lower && rel && !G.loadsBefore b.place &&
    !s.fenced t g G b.ord false

/-- What a buffered store of a group leaves when it is performed: its place in the buffer, its completion if it is an STL, and the note that
keeps a lower lane of its instruction, parked, from its bytes (R138). -/
def Group.performed (G : Group) (b : Buffered) : Group :=
  let note (o : LOp) : LOp :=
    let o := if b.release.isSome then o.dropAcc b.tag else o
    if b.red.isNone && o.accs.any fun a => a.lane < b.lane then { o with shadow := o.shadow ++ b.bytes.map fun x => (b.lane, x.1) } else o
  ({ G with wbuf := G.wbuf.filter fun x => !(x.id == b.id && x.tag == b.tag) }.modOp b.id note).sweep

/-- A buffered store is performed at its coherence point. A reduction of a poisoned location leaves it and holds ECC (R136). -/
def State.performBuffered (s : State) (t g : Nat) (b : Buffered) : State :=
  let s := s.modGroup t g fun G => G.performed b
  let key := (b.bytes.head?.map Prod.fst).getD 0
  match b.red with
  | none => s.perform t g b.bytes
  | some code =>
    let s := s.readMem key 4
    if s.poisoned key 4 then
      s.modGroup t g fun G => G.hold
        { op := b.id, split := 0, pc := b.pc, cause := .ecc, lanes := Mask.one b.lane, detail := 0, addr := b.ea, pix := 0,
          issue := b.issue, held := true, opn := 0, opc := 0, fit := [] }
    else (s.applyAtomic key code (bytesWord (b.bytes.map Prod.snd)) 0).2

/-- R140. -/
def execStorePerformed (s : State) : Res :=
  match s.ev with
  | .lane t g id k =>
    match s.teams.find? t, s.group? t g with
    | some T, some G =>
      match G.wbuf.find? fun b => b.id == id && b.tag == k with
      | none => notNow "STORE_PERFORMED"
      | some b => if !T.here || !s.mayPerform t g G b then notNow "STORE_PERFORMED" else .next (s.performBuffered t g b)
    | _, _ => notNow "STORE_PERFORMED"
  | _ => notNow "STORE_PERFORMED"

/-- Perform the buffered stores of a group that may be, one after another (R251). -/
def State.drainGroup (t g : Nat) : Nat → State → State
  | 0, s => s
  | n + 1, s =>
    match s.group? t g with
    | none => s
    | some G => match G.wbuf.find? fun b => s.mayPerform t g G b with
      | none => s
      | some b => State.drainGroup t g n (s.performBuffered t g b)

/-- Context save drains a team's write buffers (R251); its lane instructions have stopped, so no store waits for lanes to come. -/
def State.drainTeam (s : State) (t : Nat) (T : Team) : State :=
  T.groups.foldl (fun s g =>
    State.drainGroup t g.1 g.2.wbuf.length (s.modGroup t g.1 fun G => { G with ops := G.ops.map fun o => { o with coming := [] } })) s

end Sys2Proof.Machine
end

