-- ==== Sys2Proof/Machine/Tiles.lean ====
section
/-! DEFINITION. Tile slots, handles and latches, and the GT instructions up to the moment their operation is numbered (R159 to R182). -/
namespace Sys2Proof.Machine

/-! ### Handles (R20, R159) -/

/-- The null handle (R19). -/
def nullHandle : BitVec 16 := 0xFFFF

/-- The number of tile slots of a core (R221). -/
def State.slotCount (s : State) (core : Nat) : Nat := 4 * fld (s.core core).partition.toNat 12 6

/-- The slot of a live handle of a team (R20, R225): its number and the slot. -/
def State.live (s : State) (tid : Nat) (T : Team) (h : BitVec 16) : Option (Nat × TileSlot) :=
  let n := fld h.toNat 0 8
  if s.slotCount T.core ≤ n then none
  else match s.slot? T.core n with
    | some t => if t.alloc && t.team == tid && t.gen == fld h.toNat 8 8 then some (n, t) else none
    | none => none

/-- The live slot that a t register names. -/
def State.tile? (s : State) (c : Issuer) (r : Nat) : Option (Nat × TileSlot) := s.live c.tid c.team (c.grp.treg r)

/-- A live handle whose slot has another kind is ILLEGAL (R159, R169 item 1). -/
def State.kindWrong (s : State) (c : Issuer) (r kind : Nat) : Bool :=
  match s.tile? c r with
  | some (_, t) => t.kind != kind
  | none => false

/-- Issue a command that names tiles: each register with the kind it must have, if any (R159); ILLEGAL, then STALE (R169), then the
command made from the slots. -/
def tileCommand (regs : List (Nat × Option Nat)) (legal : Issuer → Bool) (s : State) (go : Issuer → (Nat → Nat) → State) : Res :=
  withIssuer s fun c =>
    if !legal c || regs.any fun r => match r.2 with | some k => s.kindWrong c r.1 k | none => false then c.raise .illegal s
    else if regs.any fun r => (s.tile? c r.1).isNone then c.raise .stale s
    else go c fun r => ((s.tile? c r).map Prod.fst).getD 0

/-! ### Allocation and hand-over (R162 to R164) -/

/-- The lowest free slot of a core whose zeroing has finished (R162). -/
def State.freeSlot (s : State) (core : Nat) : Option Nat :=
  lowestFree (s.slotCount core) fun n => match s.slot? core n with
    | some t => t.alloc || t.busy
    | none => false

/-- A slot that has never been used (R225; log entry 4). -/
def TileSlot.empty : TileSlot := ⟨false, false, 0, 0, 0, 0, 0, 0, false, [], []⟩

/-- Allocate slot n of a core with a kind (R162). -/
def State.allocSlot (s : State) (core n tid kind : Nat) : State :=
  let old := (s.slot? core n).getD TileSlot.empty
  let new : TileSlot := { TileSlot.empty with alloc := true, team := tid, kind := kind, gen := old.gen }
  (s.modCore core fun c => { c with tiles := c.tiles.insert n new }).modTeam tid fun T => { T with slots := setInsert T.slots n }

/-- R162: QUOTA without a quota; BLOCKED while the quota is held or no slot is free. -/
def execTalloc (d : BitVec 5) (k : BitVec 3) (s : State) : Res :=
  withIssuer s fun c =>
    if c.team.quota = 0 then c.raise .quota s
    else
      let wait : State := { c.retry (.talloc s.nextOrd) s with nextOrd := s.nextOrd + 1 }
      if c.team.quota ≤ c.team.slots.length then wait
      else match s.freeSlot c.team.core with
        | none => wait
        | some n =>
          let gen := ((s.slot? c.team.core n).getD TileSlot.empty).gen
          let s := s.allocSlot c.team.core n c.tid k.toNat
          c.finish (s.modGroup c.tid c.gid fun g => g.setT d.toNat (BitVec.ofNat 16 (gen * 256 + n)))

/-- Free a slot (R163): a new generation at once; free for use when its operations and its zeroing are over. -/
def State.dropSlot (s : State) (core n tid : Nat) : State :=
  (s.modSlot core n fun t => { t with alloc := false, busy := true, gen := (t.gen + 1) % 256 }).modTeam tid fun T =>
    { T with slots := setErase T.slots n }

/-- R163. -/
def execTfree (d : BitVec 5) (s : State) : Res :=
  tileCommand [(d.toNat, none)] (fun _ => true) s fun c slot =>
    c.finish ((s.dropSlot c.team.core (slot d.toNat) c.tid).modGroup c.tid c.gid fun g => g.setT d.toNat nullHandle)

/-- R164: into the latch that group g keeps for the giver. -/
def execTgive (a g : BitVec 5) (s : State) : Res :=
  withIssuer s fun c =>
    match c.team.groups.find? g.toNat with
    | none => c.raise .illegal s
    | some G =>
      if (s.tile? c a.toNat).isNone then c.raise .stale s
      else if (G.latches.find? c.gid).isSome then c.retry (.latchFull g.toNat c.gid) s
      else
        let s := s.modGroup c.tid g.toNat fun G => { G with latches := G.latches.insert c.gid (c.grp.treg a.toNat) }
        c.finish (s.modGroup c.tid c.gid fun G => G.setT a.toNat nullHandle)

/-- R164: from the latch that the issuing group keeps for group g. -/
def execTtake (d g : BitVec 5) (s : State) : Res :=
  withIssuer s fun c =>
    match c.team.groups.find? g.toNat with
    | none => c.raise .illegal s
    | some G =>
      match c.grp.latches.find? g.toNat with
      | none => if G.retired then c.raise .stale s else c.retry (.latchEmpty c.gid g.toNat) s
      | some h =>
        c.finish (s.modGroup c.tid c.gid fun G => { G with latches := G.latches.erase g.toNat }.setT d.toNat h)

/-! ### Barriers of slots (R182) -/

/-- R182: the arrival is recorded once the group's earlier operations on the slot are complete. -/
def execTarv (a : BitVec 5) (c : BitVec 6) (s : State) : Res :=
  tileCommand [(a.toNat, none)] (fun _ => true) s fun i slot =>
    i.finish (s.modCore i.team.core fun k =>
      { k with arrivals := k.arrivals ++ [⟨slot a.toNat, c.toNat, i.tid, i.gid, s.nextOrd⟩] })

/-- Record an arrival on a slot (R182): the first of a phase sets its target; the last begins the next phase. -/
def TileSlot.arrive (t : TileSlot) (target : Nat) : TileSlot :=
  let goal := if t.count = 0 then target else t.target
  if goal ≤ t.count + 1 then { t with p := (t.p + 1) % 65536, count := 0, target := 0 }
  else { t with count := t.count + 1, target := goal }

/-- The condition of TAWT (R182): (P − phase) mod 128 lies between 1 and 64. -/
def phaseReached (p phase : Nat) : Bool :=
  let d := (p + 128 - phase % 128) % 128
  1 ≤ d && d ≤ 64

/-- R182. -/
def execTawt (a : BitVec 5) (p : BitVec 7) (s : State) : Res :=
  tileCommand [(a.toNat, none)] (fun _ => true) s fun c slot =>
    let n := slot a.toNat
    if phaseReached (((s.slot? c.team.core n).map TileSlot.p).getD 0) p.toNat then c.finish s
    else c.retry (.tawt n p.toNat) s

/-! ### Kind-L readers (R165, R166) -/

/-- R165, kind L: written once the operations before it on the slot are complete; it waits for a lane instruction that writes its s registers
(R82). -/
def execTstat (a : BitVec 5) (s : BitVec 6) (r : State) : Res :=
  tileCommand [(a.toNat, none)] (fun _ => s.toNat % 2 == 0 && s.toNat < 63) r fun c slot =>
    if c.grp.sComing s.toNat || c.grp.sComing (s.toNat + 1) then c.stall r
    else
      let kind := LKind.tstat c.team.core (slot a.toNat) s.toNat r.nextOrd
      let r := { r with nextOrd := r.nextOrd + 1 }
      c.finish (r.modGroup c.tid c.gid fun g => g.push { c.lop kind with sdests := [s.toNat, s.toNat + 1] })

/-- R166, kind L: new mappings for the pair, the lanes of ACT written when the row has been read. -/
def execTtov (a b : BitVec 5) (r : BitVec 6) (s : State) : Res :=
  let ds := [2 * b.toNat, 2 * b.toNat + 1]
  tileCommand [(a.toNat, none)] (fun c => s.alloc c.team c.grp ds 2 != .illegal) s fun c slot =>
    match s.alloc c.team c.grp ds 2 with
    | .illegal => c.raise .illegal s
    | .wait => c.retry (.regs 2) s
    | .ok =>
      let kind := LKind.ttov c.team.core (slot a.toNat) r.toNat s.nextOrd c.spl.act
      let s := { s with nextOrd := s.nextOrd + 1 }
      c.finish (s.modGroup c.tid c.gid fun g => g.push { c.lop kind with dests := ds, nv := [VReg.zero, VReg.zero] })

/-! ### Formats of the matrix engine (R54, R55, R159) -/

/-- Bits of an element and Kt for FMT.ma (R159). -/
def elemBits (ma : Nat) : Nat := match ma with | 0 => 16 | 1 => 8 | _ => 4
def ktOf (ma : Nat) : Nat := match ma with | 0 => 128 | 1 => 256 | _ => 512

/-- FMT.ma names an integer element format. -/
def Fmt.intElems (f : Fmt) : Bool := match f.ma with | 1 => 2 ≤ f.q8 | 2 => f.q4 == 1 || f.q4 == 2 | _ => false

/-- FMT.ma and the fields it uses hold no reserved code. -/
def Fmt.elemOk (f : Fmt) : Bool := f.maOk && !(f.ma == 2 && f.q4 == 3)

/-- The FMT part of R169 item 1: reserved codes, mb ≠ ma, R55, a rotation without scales. -/
def Fmt.mmaOk (f : Fmt) (rot : Nat) : Bool :=
  f.elemOk && f.scOk && f.mb == f.ma && !(f.sc != 0 && (f.ma == 0 || f.intElems)) && !(rot != 0 && f.sc == 0)

/-- The number of scale blocks along K (R170). -/
def Fmt.blocks (f : Fmt) : Nat := if f.sc = 1 then ktOf f.ma / 32 else ktOf f.ma / 16

/-- The registers of a row of scales (R170). -/
def scaleRegs (base : Nat) (f : Fmt) : List Nat := if f.sc = 0 then [] else (List.range (f.blocks / 2)).map (base + ·)

/-- A float format that TSOFT and TEW.cvt can write (R177). -/
def Fmt.floatElems (f : Fmt) : Bool := f.elemOk && !f.intElems

/-! ### Matrix commands (R168 to R175) -/

/-- A weight-buffer entry of a core, if loaded (R226). -/
def State.entry? (s : State) (core e : Nat) : Option Weight := (s.core core).weights.find? e

/-- The FMT fields a braid compares (R56). -/
def braidFmt (f : Fmt) : Nat := fld f.toNat 3 11

/-- The members of the knot that an arrival meets: of its team, listing it or listed by it (R174). -/
def Issuer.knotOf (c : Issuer) (s : State) : List KnotMember :=
  (s.core c.team.core).knot.filter fun k =>
    k.team == c.tid && (k.brd.getLsbD c.gid || c.grp.brd.getLsbD k.grp)

/-- A split of the knot goes on (R174): past its instruction, parked if that is a marker. -/
def State.leaveKnot (s : State) (k : KnotMember) : State :=
  s.modGroup k.team k.grp fun g => g.modSplit k.split fun e =>
    if e.wait = .knot then
      let st : SplitSt := if k.m then .blocked else .ready
      { e with pc := e.pc + 4, wait := .none, mark := if k.m then some g.nextOp else none
               st := if e.st = .frozen then e.st else st, back := if e.st = .frozen then st else e.back }
    else e

/-- Name the braided set that an MMA belongs to; 0 names none. -/
def ECmd.inBraid (n : Nat) : ECmd → ECmd
  | .mma d a b wb m f rot sa sb _ => .mma d a b wb m f rot sa sb n
  | x => x

/-- The knot is complete (R174): every member's operation is numbered on its own matrix context, in ascending group order; they are one
braided set. -/
def State.tieKnot (s : State) (T : Team) (tid : Nat) (ks : List KnotMember) : State :=
  let s := s.modCore T.core fun c => { c with knot := c.knot.filter fun k => !ks.any fun x => x.team == k.team && x.grp == k.grp }
  let order := (List.range 32).flatMap fun g => ks.filter fun k => k.grp == g
  let set := s.nextOrd + 1
  order.foldl (fun s k =>
    match s.group? tid k.grp with
    | none => s
    | some G => (s.number G.mctx T tid k.grp G.nextOp (k.cmd.inBraid set)).2.leaveKnot k) s

/-- Arrive in the knot with a command, or number it at once where it is not braided (R174). -/
def Issuer.matrix (c : Issuer) (braided wb : Bool) (b : Nat) (cmd : ECmd) (s : State) : State :=
  if !braided then c.engine c.grp.mctx none cmd s
  else
    let n := popc c.grp.brd
    let ks := c.knotOf s
    if ((s.ectxs.find? c.grp.mctx).map ECtx.full).getD false then c.retry (.ctxFull c.grp.mctx) s
    else if ks.any fun k => k.grp == c.gid then c.stall s
    else if ks.any fun k => k.brd != c.grp.brd || k.wb != wb || k.b != b || braidFmt k.fmt != braidFmt c.spl.fmt then c.raise .braid s
    else
      let me : KnotMember := ⟨c.tid, c.gid, c.sid, c.grp.brd, wb, b, c.spl.fmt, c.m, cmd⟩
      let s := (c.count s).modSplit c.tid c.gid c.sid fun e => { e with wait := .knot, st := .blocked }
      if ks.length + 1 = n then s.tieKnot c.team c.tid (ks ++ [me])
      else s.modCore c.team.core fun k => { k with knot := k.knot ++ [me] }

/-- BRD is legal for a braid of the issuing group (R174). -/
def Issuer.brdOk (c : Issuer) : Bool :=
  let n := popc c.grp.brd
  c.grp.brd.getLsbD c.gid && 2 ≤ n && n ≤ 6 && (List.range 32).all fun g => !c.grp.brd.getLsbD g || (c.team.groups.find? g).isSome

/-- MMA and MMAS at issue (R168 to R174). `kinds` are the registers with their kinds; entry `e` is B for MMA.wb. The scales are read in all
lanes, after every lane instruction that writes them (R18). -/
def matrixIssue (kinds : List (Nat × Nat)) (e : Option Nat) (braided : Bool) (rot : Nat)
    (cmd : Issuer → (Nat → Nat) → List VReg → List VReg → ECmd) (b : (Nat → Nat) → Nat) (s : State) : Res :=
  withIssuer s fun c =>
    let f := c.fmt
    let aregs := scaleRegs (fld c.grp.scv.toNat 0 6) f
    let ent := e.bind fun n => s.entry? c.team.core n
    let packed := match ent with | some w => w.scale != 0 | none => false
    let bregs := if packed then [] else scaleRegs (fld c.grp.scv.toNat 8 6) f
    let widthBad := match ent with | some w => w.width != f.ma | none => false
    let entStale := e.isSome && match ent with | some w => w.space != c.team.space | none => true
    if kinds.any (fun r => s.kindWrong c r.1 r.2) || !f.mmaOk rot || (aregs ++ bregs).any (63 < ·) || widthBad
        || braided && !c.brdOk then c.raise .illegal s
    else if entStale || kinds.any fun r => (s.tile? c r.1).isNone then c.raise .stale s
    else if (aregs ++ bregs).any c.grp.vWalking then c.stall s
    else if (aregs ++ bregs).any fun n => (c.src n).bad != 0 then c.raise .ecc s
    else
      let slot (r : Nat) : Nat := ((s.tile? c r).map Prod.fst).getD 0
      c.matrix braided e.isSome (b slot) (cmd c slot (aregs.map c.src) (bregs.map c.src)) s

/-- R168. -/
def execMma (d a b : BitVec 5) (w g : Bool) (r : BitVec 2) (s : State) : Res :=
  if w then
    matrixIssue [(d.toNat, 0), (a.toNat, 1)] (some b.toNat) g r.toNat
      (fun c slot sa sb => .mma (slot d.toNat) (slot a.toNat) b.toNat
        ((s.entry? c.team.core b.toNat).map fun x => (x.compressed, x.scale)) none c.spl.fmt r.toNat sa sb 0) (fun _ => b.toNat) s
  else
    matrixIssue [(d.toNat, 0), (a.toNat, 1), (b.toNat, 2)] none g r.toNat
      (fun c slot sa sb => .mma (slot d.toNat) (slot a.toNat) (slot b.toNat) none none c.spl.fmt r.toNat sa sb 0)
      (fun slot => slot b.toNat) s

/-- R172: A from t[a], its metadata from t[b], B from t[a + 1]. -/
def execMmas (d a b : BitVec 5) (g : Bool) (r : BitVec 2) (s : State) : Res :=
  matrixIssue [(d.toNat, 0), (a.toNat, 1), (a.toNat + 1, 2), (b.toNat, 4)] none g r.toNat
    (fun c slot sa sb =>
      .mma (slot d.toNat) (slot a.toNat) (slot (a.toNat + 1)) none (some (slot b.toNat)) c.spl.fmt r.toNat sa sb 0)
    (fun slot => slot (a.toNat + 1)) s

/-! ### Tile vector commands (R165, R173, R177 to R181) -/

/-- A command on the group's matrix context. -/
def matrixCommand (regs : List (Nat × Option Nat)) (legal : Issuer → Bool) (s : State) (cmd : Issuer → (Nat → Nat) → ECmd) : Res :=
  tileCommand regs legal s fun c slot => c.engine c.grp.mctx none (cmd c slot) s

/-- R165. -/
def execTzero (d : BitVec 5) (s : State) : Res :=
  matrixCommand [(d.toNat, none)] (fun _ => true) s fun _ slot => .tzero (slot d.toNat)

/-- R173. -/
def execTcomp (d a b : BitVec 5) (s : State) : Res :=
  matrixCommand [(d.toNat, some 1), (a.toNat, some 1), (b.toNat, some 4)] (fun c => c.fmt.elemOk) s
    fun c slot => .tcomp (slot d.toNat) (slot a.toNat) (slot b.toNat) c.spl.fmt

/-- R177. -/
def execTsoft (d a b : BitVec 5) (f : Bool) (c : BitVec 3) (s : State) : Res :=
  matrixCommand [(d.toNat, some 1), (a.toNat, some 0), (b.toNat, some 3)]
    (fun i => i.fmt.floatElems && c.toNat < ktOf i.fmt.ma / 64) s
    fun i slot => .tsoft (slot d.toNat) (slot a.toNat) (slot b.toNat) c.toNat f i.spl.fmt

/-- R178. -/
def execTscale (d a b : BitVec 5) (n : Bool) (s : State) : Res :=
  matrixCommand ([(d.toNat, some 0), (b.toNat, some 3)] ++ if n then [] else [(a.toNat, some 0)]) (fun _ => true) s
    fun _ slot => .tscale (slot d.toNat) (if n then none else some (slot a.toNat)) (slot b.toNat)

/-- R178. -/
def execTnorm (d a b : BitVec 5) (s : State) : Res :=
  matrixCommand [(d.toNat, some 0), (a.toNat, some 0), (b.toNat, some 3)] (fun _ => true) s
    fun _ slot => .tnorm (slot d.toNat) (slot a.toNat) (slot b.toNat)

/-- R179. -/
def execTrowred (d a : BitVec 5) (k : BitVec 2) (s : State) : Res :=
  matrixCommand [(d.toNat, some 0), (a.toNat, some 0)] (fun _ => true) s
    fun _ slot => .trowred (slot d.toNat) (slot a.toNat) k.toNat

/-- R180: the kinds of td and tb follow the operation and the form. -/
def execTew (d a b : BitVec 5) (c : Bool) (f : BitVec 2) (k : BitVec 4) (s : State) : Res :=
  let tb := if f = 3 then [] else [(b.toNat, some (if k = 8 then 5 else 0))]
  matrixCommand ([(d.toNat, some (if c then 1 else 0)), (a.toNat, some 0)] ++ tb) (fun i => !c || i.fmt.floatElems) s
    fun i slot => .tew (slot d.toNat) (slot a.toNat) (if f = 3 then 0 else slot b.toNat) k.toNat f.toNat c i.spl.fmt

/-- R166: the pair is read at issue. -/
def execVtot (d b : BitVec 5) (r : BitVec 6) (s : State) : Res :=
  tileCommand [(d.toNat, none)] (fun _ => true) s fun c slot =>
    let lo := c.src (2 * b.toNat)
    let hi := c.src (2 * b.toNat + 1)
    if (lo.bad ||| hi.bad) &&& c.spl.act ≠ 0 then c.raise .ecc s
    else c.engine c.grp.mctx none (.vtot (slot d.toNat) r.toNat lo hi c.spl.act) s

/-- R181: MMA's fields and checks, but that td is of kind data. -/
def execSigq (d a b : BitVec 5) (s : State) : Res :=
  matrixIssue [(d.toNat, 5), (a.toNat, 1), (b.toNat, 2)] none false 0
    (fun c slot sa sb => .sigq (slot d.toNat) (slot a.toNat) (slot b.toNat) c.spl.fmt sa sb) (fun slot => slot b.toNat) s

end Sys2Proof.Machine
end

