-- ==== Sys2Proof/Machine/TileWork.lean ====
section
/-! DEFINITION. What the matrix engine and the tile vector unit compute (R54 to R56, R159, R168 to R181). A slot's 16 KiB is read as
an array of bytes and written back as a map that lists no zero. -/
namespace Sys2Proof.Machine

/-! ### Bytes, words and elements of a tile (R42, R159) -/

/-- The 16 KiB of a slot or of a weight-buffer entry. -/
def tileArray (m : SMap Byte) : Array Byte := m.foldl (fun a b => a.set! b.1 b.2) (Array.replicate 16384 0)

/-- The map of 16 KiB. -/
def tileMap (a : Array Byte) : SMap Byte := (a.toList.zipIdx.filter fun b => b.1 != 0).map fun b => (b.2, b.1)

def byteAt (a : Array Byte) (i : Nat) : Byte := a.getD i 0

/-- The word at row r, column j (R159). -/
def wordAt (a : Array Byte) (r j : Nat) : Word :=
  byteAt a (256 * r + 4 * j + 3) ++ byteAt a (256 * r + 4 * j + 2) ++ byteAt a (256 * r + 4 * j + 1) ++ byteAt a (256 * r + 4 * j)

/-- Element k, of w bits, of the bit string that starts at byte `base` (R159). -/
def elemAt (a : Array Byte) (w base k : Nat) : Nat :=
  match w with
  | 16 => (byteAt a (base + 2 * k)).toNat + 256 * (byteAt a (base + 2 * k + 1)).toNat
  | 8 => (byteAt a (base + k)).toNat
  | _ => fld (byteAt a (base + k / 2)).toNat (4 * (k % 2)) 4

/-- The bytes of consecutive elements of w bits, an even number of them (R159). -/
def packElems (w : Nat) : List Nat → List Byte
  | [] => []
  | x :: xs =>
    match w with
    | 16 => natBytes 2 x ++ packElems w xs
    | 8 => natBytes 1 x ++ packElems w xs
    | _ => match xs with
      | [] => natBytes 1 x
      | y :: ys => natBytes 1 (x + 16 * y) ++ packElems w ys

/-- Write bytes at offsets; an 8-byte word written in full loses its poison. -/
def TileSlot.put (t : TileSlot) (parts : List (Nat × List Byte)) : TileSlot :=
  let a := parts.foldl (fun a p => (p.2.zipIdx).foldl (fun a b => a.set! (p.1 + b.2) b.1) a) (tileArray t.bytes)
  let cleared (w : Nat) : Bool := parts.any fun p => p.1 ≤ 8 * w && 8 * w + 8 ≤ p.1 + p.2.length
  { t with bytes := tileMap a, bad := t.bad.filter fun w => !cleared w }

/-- Bytes off to off + n − 1 hold poison. -/
def TileSlot.poisoned (t : TileSlot) (off n : Nat) : Bool := (wordsOf off n).any fun w => t.bad.contains w

/-- The exact value of an element under FMT.ma (R168). -/
def Fmt.elem (f : Fmt) (c : Nat) : FV :=
  match f.ma with
  | 0 => f.half.dec c
  | 1 => f.elem8 c
  | _ => f.elem4 c

/-- The integer an element stands for. -/
def Fmt.intElem (f : Fmt) (c : Nat) : Int := if f.ma = 1 then f.int8 c else f.int4 c

/-! ### Operands of a multiply -/

/-- An operand of a multiply: the code of row i, element k (R168, R172). -/
abbrev Operand := Nat → Nat → Nat

/-- A plain operand. -/
def plainOperand (a : Array Byte) (w : Nat) : Operand := fun i k => elemAt a w (256 * i) k

/-- A compressed operand (R172): rows `stride` bytes apart, metadata of row i at `base + mstride × i`. A removed position holds a 0 that
R56 multiplies as any other (log entry 63). -/
def sparseOperand (a : Array Byte) (w stride : Nat) (m : Array Byte) (base mstride : Nat) : Operand := fun i k =>
  let g := k / 4
  let nib := fld (byteAt m (base + mstride * i + g / 2)).toNat (4 * (g % 2)) 4
  let lo := nib % 4
  let hi := nib / 4
  if k % 4 = hi then elemAt a w (stride * i) (2 * g + 1)
  else if k % 4 = lo then elemAt a w (stride * i) (2 * g)
  else 0

/-- The value of a scale code (R55). -/
def scaleValue (sc code : Nat) : FV :=
  if sc = 1 then (if code = 255 then .nan else .fin false 1 ((code : Int) - 127)) else e4m3.dec code

/-- The scale of row i, block b from scale registers (R170). -/
def regScale (f : Fmt) (rot : Nat) (rs : List VReg) (i b : Nat) : FV :=
  let r := rs.getD (2 * (b / 4) + i / 32) VReg.zero
  scaleValue f.sc (fld (r.lane (i % 32)).toNat (8 * ((b + rot) % 4)) 8)

/-- A multiply: operands and scales. -/
structure Mul where
  fmt : Fmt
  a : Operand
  b : Operand
  sa : Nat → Nat → FV
  sb : Nat → Nat → FV
  /-- the code that B's scales have -/
  bsc : Nat

/-- The block of K index k under a scale code (R55). -/
def blockOf (sc k : Nat) : Nat := if sc = 1 then k / 32 else k / 16

/-- One product with its scales (R54). -/
def Mul.term (m : Mul) (i j k : Nat) : FV :=
  let p := FV.mul (m.fmt.elem (m.a i k)) (m.fmt.elem (m.b j k))
  if m.fmt.sc = 0 then p else FV.mul (FV.mul (m.sa i (blockOf m.fmt.sc k)) (m.sb j (blockOf m.bsc k))) p

/-- The size of a summation group (R54). -/
def groupSize (ma : Nat) : Nat := match ma with | 0 => 8 | 1 => 32 | _ => 64

/-- Add one group to an accumulator element (R54, R56). -/
def Mul.group (m : Mul) (i j g : Nat) (acc : Word) : Word :=
  let n := groupSize m.fmt.ma
  let ks := (List.range n).map (g * n + ·)
  if m.fmt.intElems then
    acc + BitVec.ofInt 32 ((ks.map fun k => m.fmt.intElem (m.a i k) * m.fmt.intElem (m.b j k)).foldl (· + ·) 0)
  else
    let y := BitVec.ofNat 32 (fp32.enc 0 (FV.sum 0 (ks.map (m.term i j))))
    BitVec.ofNat 32 (fp32.enc 0 (FV.add 0 (f32 acc) (f32 y)))

/-- The groups of one k-step (R168). -/
def stepGroups (ma step : Nat) : List Nat := if ma = 0 then [2 * step, 2 * step + 1] else [step]

/-- An element after some groups. -/
def Mul.groups (m : Mul) (gs : List Nat) (i j : Nat) (acc : Word) : Word := gs.foldl (fun x g => m.group i j g x) acc

/-- The full dot product from 0 (R181). -/
def Mul.dot (m : Mul) (i j : Nat) : Word := m.groups ((List.range 8).flatMap (stepGroups m.fmt.ma)) i j 0

/-- The slot of an operation's core, zero where it has none. -/
def State.slotOf (s : State) (o : EOp) (n : Nat) : TileSlot := (s.slot? o.core n).getD TileSlot.empty

def State.arr (s : State) (o : EOp) (n : Nat) : Array Byte := tileArray (s.slotOf o n).bytes

/-- The weight-buffer entry that an operation reads: its core's, or the pack that a save took along (R203, R226). -/
def State.packOf (s : State) (o : EOp) (e : Nat) : Option Weight := match o.pack with
  | some w => some w
  | none => s.entry? o.core e

/-- Scale blocks along K of a width under a scale code (R170, R171). -/
def scaleBlocks (width sc : Nat) : Nat := if sc = 1 then ktOf width / 32 else ktOf width / 16

/-- The multiply of an operation (R168, R170, R172, R181). An entry's scales have the code that WBLD recorded (log entry 25). -/
def State.mulOf (s : State) (o : EOp) : Option Mul :=
  match o.cmd with
  | .sigq _ a b f sa sb =>
    let w := elemBits (Fmt.ma f)
    some ⟨f, plainOperand (s.arr o a) w, plainOperand (s.arr o b) w, regScale f 0 sa, regScale f 0 sb, Fmt.sc f⟩
  | .mma _ a b wb meta_ f rot sa sb _ =>
    let f : Fmt := f
    let w := elemBits f.ma
    let kt := ktOf f.ma
    let A : Operand := match meta_ with
      | none => plainOperand (s.arr o a) w
      | some m => sparseOperand (s.arr o a) w 256 (s.arr o m) 0 256
    match wb with
    | some (packed, scale) =>
      (s.packOf o b).map fun e =>
        let x := tileArray e.bytes
        let B : Operand := if packed then sparseOperand x w 128 x 8192 (kt / 8) else plainOperand x w
        let sB : Nat → Nat → FV := if scale = 0 then regScale f rot sb
          else fun j k => scaleValue scale (byteAt x (8192 + 8 * kt + scaleBlocks f.ma scale * j + k)).toNat
        ⟨f, A, B, regScale f rot sa, sB, if scale = 0 then f.sc else scale⟩
    | none => some ⟨f, A, plainOperand (s.arr o b) w, regScale f rot sa, regScale f rot sb, f.sc⟩
  | _ => none

/-- Some row holds poison in bytes base + stride × i to base + stride × i + n − 1. -/
def rowsBad (bad : List Nat) (base stride n : Nat) : Bool :=
  !bad.isEmpty && (List.range 64).any fun i => (wordsOf (base + stride * i) n).any fun w => bad.contains w

/-- A k-step reads a poisoned word (R366): 32 bytes of each row of a plain operand, 16 of a compressed one with its metadata, the
scales of a scaled pack, and the accumulator. -/
def State.kstepBad (s : State) (o : EOp) (step : Nat) : Bool :=
  match o.cmd with
  | .mma d a b wb meta_ f _ _ _ _ =>
    let f : Fmt := f
    let n := ktOf f.ma / 64
    let ta := (s.slotOf o a).bad
    let badA := match meta_ with
      | none => rowsBad ta (32 * step) 256 32
      | some m => rowsBad ta (16 * step) 256 16 || rowsBad (s.slotOf o m).bad (n * step) 256 n
    let badB := match wb with
      | some (packed, scale) => match s.packOf o b with
        | none => true
        | some e =>
          if packed then
            rowsBad e.bad (16 * step) 128 16 || rowsBad e.bad (8192 + n * step) (ktOf f.ma / 8) n ||
              f.sc != 0 && scale != 0 && rowsBad e.bad (8192 + 8 * ktOf f.ma + scaleBlocks f.ma scale / 8 * step) (scaleBlocks f.ma scale)
                (scaleBlocks f.ma scale / 8)
          else rowsBad e.bad (32 * step) 256 32
      | none => rowsBad (s.slotOf o b).bad (32 * step) 256 32
    badA || badB || !(s.slotOf o d).bad.isEmpty
  | _ => false

/-- All 64 × 64 words of a tile from their coordinates. -/
def wholeTile (f : Nat → Nat → Word) : List (Nat × List Byte) :=
  (List.range 64).map fun r => (256 * r, (List.range 64).flatMap fun j => wordBytes (f r j))

/-- One k-step of an MMA or MMAS on its accumulator (R168). -/
def State.kstep (s : State) (o : EOp) : State :=
  match o.cmd, s.mulOf o with
  | .mma d _ _ _ _ f _ _ _ _, some m =>
    let acc := s.arr o d
    s.modSlot o.core d fun t => t.put (wholeTile fun i j => m.groups (stepGroups (Fmt.ma f) o.prog) i j (wordAt acc i j))
  | _, _ => s

/-! ### The tile vector unit (R173, R176 to R180) -/

def ninf : Word := 0xFF800000

/-- exp2 as FEXP2 computes it (R176, R94). -/
def vexp2 (x : Word) : Word := BitVec.ofNat 32 (fexp2 (Config.exp2Bits x).toNat (f32 x))

/-- round(x, FP32, RNE). -/
def vround (x : FV) : Word := BitVec.ofNat 32 (fp32.enc 0 x)

/-- FMAX with X = 0. -/
def vmax (x y : Word) : Word := BitVec.ofNat 32 (fp32.minmax true false x.toNat y.toNat)
def vmin (x y : Word) : Word := BitVec.ofNat 32 (fp32.minmax false false x.toNat y.toNat)

/-- A code of the element format of FMT.ma from an exact value (R177, R194): RNE, FMT.sat, integers clamped (R51). -/
def Fmt.toElem (f : Fmt) (x : FV) : Nat :=
  match f.ma with
  | 0 => f.half.enc 0 x
  | 1 => match f.float8 with
    | some q => q.convert f.sat x
    | none =>
      if f.q8 = 2 then (BitVec.ofInt 8 (FV.clampInt 0 (-128) 127 x)).toNat else (BitVec.ofInt 8 (FV.clampInt 0 0 255 x)).toNat
  | _ =>
    if f.q4 = 0 then e2m1.convert f.sat x
    else if f.q4 = 1 then (BitVec.ofInt 4 (FV.clampInt 0 (-8) 7 x)).toNat
    else (BitVec.ofInt 4 (FV.clampInt 0 0 15 x)).toNat

/-- The maximum of a row of scores: −∞ if none is a number (R177). -/
def rowMax (xs : List Word) : Word := (xs.filter fun x => !fp32.isNaN x.toNat).foldl vmax ninf

/-- One row of TSOFT (R177): the codes of P and the five words of the row state. -/
def softRow (f : Fmt) (m h lo : Word) (xs : List Word) : List Nat × List Word :=
  let mt := rowMax xs
  let m' := vmax m mt
  if m' = ninf then (xs.map fun _ => 0, [m', h, lo, 0x3F800000, 0])
  else
    let sub (x y : Word) : Word := vround (FV.add 0 (f32 x) (f32 y).neg)
    let al := vexp2 (sub m m')
    let be := vexp2 (sub mt m')
    let ps := xs.map fun x => if mt = ninf then 0 else f.toElem (f32 (vexp2 (sub x mt)))
    let sum := FV.sum 0 (ps.map f.elem)
    let x := FV.add 0 (FV.mul (f32 al) (FV.add 0 (f32 h) (f32 lo))) (FV.mul (f32 be) sum)
    let h' := vround x
    (ps, [m', h', vround (FV.add 0 x (f32 h').neg), al, be])

/-- The key by which TCOMP compares magnitudes (R173). -/
def Fmt.weight (f : Fmt) (c : Nat) : Nat :=
  if f.intElems then (f.intElem c).natAbs
  else match f.ma with
    | 0 => if f.half.isNaN c then 2 ^ 16 else c % 2 ^ 15
    | 1 => if (f.float8.getD e4m3).isNaN c then 2 ^ 8 else c % 2 ^ 7
    | _ => c % 2 ^ 3

/-- The two kept indices of four codes, lower first (R173). -/
def keptTwo (key : Nat → Nat) : Nat × Nat :=
  let beats (x y : Nat) : Bool := key y < key x || (key x == key y && x < y)
  let kept := (List.range 4).filter fun x => ((List.range 4).filter fun y => y != x && beats y x).length < 2
  (kept.getD 0 0, kept.getD 1 0)

/-- One row of TCOMP (R173): the bytes of td's row and of the metadata. -/
def compRow (f : Fmt) (code : Nat → Nat) : List Byte × List Byte :=
  let w := elemBits f.ma
  let pairs := (List.range (ktOf f.ma / 4)).map fun g => (g, keptTwo fun x => f.weight (code (4 * g + x)))
  (packElems w (pairs.flatMap fun p => [code (4 * p.1 + p.2.1), code (4 * p.1 + p.2.2)]) ++ List.replicate 128 0,
    packElems 4 (pairs.map fun p => p.2.1 + 4 * p.2.2))

/-- TEW's function of two words (R180); exp2 and copy use the first alone. -/
def tewOp (k : Nat) (a b : Word) : Word :=
  match k with
  | 0 => vround (FV.add 0 (f32 a) (f32 b))
  | 1 => vround (FV.add 0 (f32 a) (f32 b).neg)
  | 2 => vround (FV.mul (f32 a) (f32 b))
  | 3 => BitVec.ofNat 32 (fp32.div 0 (f32 a) (f32 b))
  | 4 => vmax a b
  | 5 => vmin a b
  | 6 => vexp2 a
  | _ => vround (f32 a)

/-- TROWRED's value of a row (R179). -/
def rowReduce (k : Nat) (xs : List Word) : Word :=
  match k with
  | 0 => vround (FV.sum 0 (xs.map f32))
  | 1 => match xs with
    | [] => ninf
    | x :: r => r.foldl vmax (vround (f32 x))
  | 2 => vround (FV.sum 0 (xs.map fun x => FV.mul (f32 x) (f32 x)))
  | _ => if xs.any fun x => fp32.isNaN x.toNat then 0x7FC00000 else (xs.map (· &&& 0x7FFFFFFF#32)).foldl vmax 0

/-- The state row r of a row-state tile: m, l_hi, l_lo, α, β (R159). -/
def rowState (a : Array Byte) (r : Nat) : List Word := (List.range 5).map fun i => wordAt a r i

/-- The second operand of a TEW as its row 0 is read: a stopped one has read it ahead (R180, R203). -/
def EOp.rowAhead (o : EOp) (y : Array Byte) : Array Byte := match o.kept with
  | some bs => bs.toArray
  | none => y

/-- A tile vector operation or SIGQ (R176, R181): the slots with the bytes it writes row by row, and the first row for which it
reads a poisoned word (R366). -/
def State.vectorWork (s : State) (o : EOp) : List (Nat × List (Nat × List Byte)) × Option Nat :=
  let rows := List.range 64
  let rowBad (n off len r : Nat) : Bool := (s.slotOf o n).poisoned (256 * r + off) len
  let first (p : Nat → Bool) : Option Nat := rows.find? p
  match o.cmd with
  | .tzero d => ([(d, rows.map fun r => (256 * r, List.replicate 256 0))], none)
  | .vtot d row lo hi act =>
    let part (v : VReg) (base : Nat) : List (Nat × List Byte) := (List.range 16).flatMap fun i =>
      let one (k : Nat) : List (Nat × List Byte) := if act.has k then [(256 * row + base + 4 * k, wordBytes (v.lane k))] else []
      if act.has (2 * i) && act.has (2 * i + 1) then
        [(256 * row + base + 8 * i, wordBytes (v.lane (2 * i)) ++ wordBytes (v.lane (2 * i + 1)))]
      else one (2 * i) ++ one (2 * i + 1)
    ([(d, part lo 0 ++ part hi 128)], none)
  | .tcomp d a b f =>
    let x := s.arr o a
    let out := rows.map fun r => (r, compRow f fun k => elemAt x (elemBits (Fmt.ma f)) (256 * r) k)
    ([(d, out.map fun r => (256 * r.1, r.2.1)), (b, out.map fun r => (256 * r.1, r.2.2))], first (rowBad a 0 256))
  | .tsoft d a b c start f =>
    let f : Fmt := f
    let x := s.arr o a
    let y := s.arr o b
    let w := elemBits f.ma
    let out := rows.map fun r =>
      let st := rowState y r
      (r, softRow f (if start then ninf else st.getD 0 0) (if start then 0 else st.getD 1 0) (if start then 0 else st.getD 2 0)
        (rows.map fun j => wordAt x r j))
    ([(d, out.map fun r => (256 * r.1 + 64 * c * w / 8, packElems w r.2.1)),
      (b, out.map fun r => (256 * r.1, r.2.2.flatMap wordBytes))],
      first fun r => rowBad a 0 256 r || !start && rowBad b 0 12 r)
  | .tscale d a b =>
    let z := s.arr o d
    let y := s.arr o b
    let out (r j : Nat) : Word :=
      let p := FV.mul (f32 (wordAt y r 3)) (f32 (wordAt z r j))
      match a with
      | none => vround p
      | some a => vround (FV.add 0 p (FV.mul (f32 (wordAt y r 4)) (f32 (wordAt (s.arr o a) r j))))
    ([(d, wholeTile out)], first fun r => rowBad d 0 256 r || rowBad b 12 8 r ||
      match a with | some a => rowBad a 0 256 r | none => false)
  | .tnorm d a b =>
    let x := s.arr o a
    let y := s.arr o b
    let out (r j : Nat) : Word :=
      BitVec.ofNat 32 (fp32.div 0 (f32 (wordAt x r j)) (FV.add 0 (f32 (wordAt y r 1)) (f32 (wordAt y r 2))))
    ([(d, wholeTile out)], first fun r => rowBad a 0 256 r || rowBad b 4 8 r)
  | .trowred d a k =>
    let x := s.arr o a
    ([(d, rows.map fun r => (256 * r, wordBytes (rowReduce k (rows.map fun j => wordAt x r j))))], first (rowBad a 0 256))
  | .tew d a b k form cvt f =>
    let f : Fmt := f
    let x := s.arr o a
    let y := s.arr o b
    let y0 := o.rowAhead y
    let arg (r j : Nat) : Word := match form with
      | 0 => wordAt y r j
      | 1 => wordAt y r 0
      | _ => wordAt y0 0 j
    let out (r j : Nat) : Word :=
      if k = 8 then (if (byteAt y0 (j / 8)).getLsbD (j % 8) then vround (f32 (wordAt x r j)) else ninf)
      else tewOp k (wordAt x r j) (arg r j)
    let badB (r : Nat) : Bool :=
      if form = 3 ∨ o.kept.isSome then false
      else if k = 8 then rowBad b 0 8 0
      else match form with
        | 0 => rowBad b 0 256 r
        | 1 => rowBad b 0 4 r
        | _ => rowBad b 0 256 0
    let parts := if cvt then
        rows.map fun r => (256 * r, packElems (elemBits f.ma) (rows.map fun j => f.toElem (f32 (out r j))))
      else wholeTile out
    ([(d, parts)], first fun r => rowBad a 0 256 r || badB r)
  | .sigq d a b _ _ _ =>
    match s.mulOf o with
    | none => ([], none)
    | some m =>
      let bit (i j : Nat) : Bool :=
        if m.fmt.intElems then (0#32).slt (m.dot i j) else FV.cmp (f32 (m.dot i j)) (.fin false 0 0) == some .gt
      let row (i : Nat) : List Byte :=
        natBytes 8 (rows.foldl (fun n j => if bit i j then n + 2 ^ j else n) 0) ++ List.replicate 248 0
      ([(d, rows.map fun i => (256 * i, row i))], first fun r => !(s.slotOf o b).bad.isEmpty || rowBad a 0 256 r)
  | _ => ([], none)

/-- A command of the tile vector unit (R176). -/
def ECmd.isVector : ECmd → Bool
  | .tzero _ | .tcomp _ _ _ _ | .tsoft _ _ _ _ _ _ | .tscale _ _ _ | .tnorm _ _ _ | .trowred _ _ _ | .tew _ _ _ _ _ _ _
  | .vtot _ _ _ _ _ => true
  | _ => false

/-- A tile vector command that works row by row (R176). -/
def ECmd.isRowwise (c : ECmd) : Bool := c.isVector && match c with
  | .vtot _ _ _ _ _ => false
  | _ => true

/-- The first row that a command still has to write: a tile vector operation may have stopped at a row (R203). -/
def EOp.firstRow (o : EOp) : Nat := if o.cmd.isVector then o.prog else 0

/-- The state after a tile vector operation or SIGQ has written its rows below a limit. -/
def State.vectorDone (s : State) (o : EOp) (w : List (Nat × List (Nat × List Byte))) (limit : Nat) : State :=
  w.foldl (fun s x => s.modSlot o.core x.1 fun t => t.put (x.2.filter fun p => 256 * o.firstRow ≤ p.1 && p.1 < 256 * limit)) s

/-- A running tile vector operation stops before a row (R203): the rows below are written, and those a `.col` or `.mask` TEW has read ahead
are kept (R180). -/
def State.stopAtRow (s : State) (ctx : Nat) (o : EOp) (row : Nat) : State :=
  let (parts, bad) := s.vectorWork o
  let row := max o.prog (min row (bad.getD 64))
  let kept := match o.cmd, o.kept with
    | .tew _ _ b k form _ _, none => if form = 2 ∨ k = 8 then some ((s.arr o b).toList.take 256) else none
    | _, x => x
  (s.vectorDone o parts row).modEop ctx o.num fun o => { o with prog := row, kept := if row = 0 then o.kept else kept }

end Sys2Proof.Machine
end

