-- ==== Sys2Proof/Machine/Kv.lean ====
section
/-! DEFINITION. Sequence records, block tables, tails, gathers and flushes (R194 to R198, R292 to R303, R308). -/
namespace Sys2Proof.Machine

/-! ### The sequence record (R292, R293) -/

/-- The fields of a sequence record (R292). -/
structure Rec where
  n : Nat
  granule : Nat
  autoflush : Bool
  kvfmt : Nat
  width : Nat
  w : Nat
  request : Nat
  length : Nat
  view : Nat
  btab : Nat
  sigproj : Nat
  amax : Nat
  events : Nat
  exch : Nat
  eventIndex : Nat
  /-- a reserved bit is nonzero, or a code reserved -/
  bad : Bool

/-- Parse the first 128 bytes of a record. -/
def parseRec (bs : List Byte) : Rec :=
  let f (o n : Nat) : Nat := bytesNat ((bs.drop o).take n)
  let x := f 4 4
  let y := f 8 4
  { n := f 0 4, granule := fld x 0 3, autoflush := fld x 3 1 == 1, kvfmt := fld x 4 2, width := fld x 8 10, w := fld y 0 4
    request := fld y 4 4, length := f 12 4, view := f 16 8, btab := f 24 8, sigproj := f 32 8, amax := f 40 8, events := f 48 8
    exch := f 56 8, eventIndex := f 64 4
    bad := 4 < fld x 0 3 || fld x 6 2 != 0 || fld x 18 14 != 0 || fld y 8 24 != 0 || f 68 60 != 0 }

/-- The checks of R293. -/
def Rec.valid (r : Rec) : Bool :=
  !r.bad && 1 ≤ r.w && r.w ≤ 8 && 1 ≤ r.width && r.width ≤ 512 && r.btab % 4 == 0 && r.sigproj % 256 == 0 && r.amax % 4 == 0 &&
    r.events % 256 == 0 && r.exch % 256 == 0 && r.n % 16 == 0

/-- The key of a record in the package scheduler's table. -/
def seqKey (space rec : Nat) : Nat := space * 2 ^ 64 + rec

/-- Choose n distinct dies from a list (R293; log entry 12). -/
def State.chooseDies : Nat → State → List Nat → List Nat × State
  | 0, s, _ => ([], s)
  | n + 1, s, ds =>
    if ds.isEmpty then ([], s)
    else
      let (i, s) := s.draw ds.length
      let d := ds.getD i 0
      let (r, s) := State.chooseDies n s (setErase ds d)
      (d :: r, s)

/-- Read a record's 128 bytes; its first use activates it (R293). The word of the event index may hold poison (R367). -/
def recBytesW (a : Agent) (rec : Nat) : Work (List Byte) := do
  if rec % 256 ≠ 0 then failW .align rec
  else
    let (bs, _) ← readRawW a rec 128
    let k ← reachW a rec accEngineRead
    let s ← get
    if s.poisoned k 64 || s.poisoned (k + 72) 56 then failW .ecc rec
    else match s.seqs.find? (seqKey a.space rec) with
    | some _ => pure bs
    | none =>
      let r := parseRec bs
      if !r.valid then failW .illegal rec
      else
        modify fun s =>
          let (ds, s) := State.chooseDies r.w s (List.range 8)
          { s with seqs := s.seqs.insert (seqKey a.space rec) ⟨ds, .empty, false, [], false, false, 0, 0, none, false⟩ }
        pure bs

/-- The record for an operation that runs already. -/
def recW (a : Agent) (rec : Nat) : Work Rec := do
  let bs ← recBytesW a rec
  pure (parseRec bs)

/-- A record that is being retired (R320). -/
def State.retiring (s : State) (space rec : Nat) : Bool := (s.seqs.find? (seqKey space rec)).any Seq.retiring

/-- The record for a new operation; one that is being retired takes none (R320). -/
def openRec (a : Agent) (rec : Nat) : Work Rec := do
  let s ← get
  if rec % 256 = 0 && s.retiring a.space rec then failW .illegal rec else recW a rec

/-- The scheduler's entry of an active record. -/
def seqW (a : Agent) (rec : Nat) : Work Seq := do
  let s ← get
  match s.seqs.find? (seqKey a.space rec) with
  | some q => pure q
  | none => failW .illegal rec

def State.modSeq (s : State) (space rec : Nat) (f : Seq → Seq) : State :=
  { s with seqs := s.seqs.modify (seqKey space rec) f }

/-! ### Blocks (R294 to R296, R303) -/

def blockBytes : Nat := 65536

/-- The key of a block in the reference and pin counts: tier and number. -/
def blockKey (tier b : Nat) : Nat := tier * 2 ^ 32 + b

/-- The memory key of a physical block (R294), where the device has it. -/
def State.blockMem (s : State) (tier b : Nat) : Option Nat := s.frameKey tier (b * blockBytes)

/-- The memory key of a block, or PROT. -/
def blockW (tier b : Nat) : Work Nat := do
  let s ← get
  match s.blockMem tier b with
  | some k => pure k
  | none => failW .prot 0

/-- A block-table entry (R294): state, tier, block. -/
def entryFields (e : Nat) : Nat × Nat × Nat := (fld e 30 2, fld e 28 2, fld e 0 28)
def entryWord (st tier b : Nat) : Nat := st * 2 ^ 30 + tier * 2 ^ 28 + b

/-- Entry i of a record's table; a free one at or beyond its length. -/
def entryW (a : Agent) (r : Rec) (i : Nat) : Work (Nat × Nat × Nat) := do
  if r.length ≤ i then pure (0, 0, 0)
  else
    let e ← natW a (r.btab + 4 * i) 4
    pure (entryFields e)

def setEntryW (a : Agent) (r : Rec) (i st tier b : Nat) : Work Unit := writeW a (r.btab + 4 * i) (natBytes 4 (entryWord st tier b))

def State.modBlocks (s : State) (space : Nat) (f : Ctx → Ctx) : State := { s with ctxs := s.ctxs.modify space f }

/-- The free zeroed blocks of a tier. -/
def Ctx.pool (x : Ctx) (tier : Nat) : List Nat := if tier = 0 then x.pool0 else x.pool1
def Ctx.setPool (x : Ctx) (tier : Nat) (l : List Nat) : Ctx := if tier = 0 then { x with pool0 := l } else { x with pool1 := l }

/-- Take a block out of the pool with a reference count. -/
def Ctx.take (x : Ctx) (tier b refs : Nat) : Ctx :=
  { x.setPool tier (setErase (x.pool tier) b) with refs := SMap.put 0 x.refs (blockKey tier b) refs }

/-- Lower a block's reference count; at 0 it is queued for release (R303). -/
def Ctx.drop (x : Ctx) (tier b : Nat) : Ctx :=
  let k := blockKey tier b
  let n := SMap.getD x.refs k 0 - 1
  { x with refs := SMap.put 0 x.refs k n, release := if n = 0 then setInsert x.release k else x.release }

def Ctx.pin (x : Ctx) (tier b : Nat) : Ctx :=
  { x with pins := SMap.put 0 x.pins (blockKey tier b) (SMap.getD x.pins (blockKey tier b) 0 + 1) }

/-- The die of a tier-0 block (R13, R234). -/
def blockDie (b : Nat) : Nat := b * blockBytes / 2 ^ 38

/-! ### The event area (R302, R367) -/

/-- Write a tier-miss record and advance the event index, which is read now; a word with an uncorrectable error bars it (R367). -/
def tierMissW (a : Agent) (rec : Nat) (r : Rec) (fut : Dword) (met : List Nat) : Work Unit := do
  match met with
  | [] => pure ()
  | x :: xs =>
    let lo := xs.foldl min x
    let hi := xs.foldl max x
    let k ← natW a (rec + 64) 4
    recordW a (r.events + 64 * (k % 64)) (rec + 64) k
      (natBytes 4 1 ++ natBytes 4 0 ++ natBytes 8 fut.toNat ++ natBytes 4 lo ++ natBytes 4 hi ++ natBytes 4 met.length
        ++ natBytes 4 r.n ++ natBytes 32 0)

/-! ### Tails (R229, R297, R298) -/

/-- The key of a tail slot: 4096 × die + slot. -/
def tailKey (die n : Nat) : Nat := 4096 * die + n

/-- What a tail page holds (R298): its rows at 0, its signatures at 0x8100. -/
def State.pageTail (s : State) (k : Nat) : TailSlot :=
  let part (off len : Nat) : SMap Byte := (List.range len).filterMap fun i =>
    if s.byte (k + off + i) = 0 then none else some (i, s.byte (k + off + i))
  { bytes := part 0 32768
    sigs := part 0x8100 128
    bad := (s.poison.filter fun w => k / 8 ≤ w && w < k / 8 + 4096 || k / 8 + 4128 ≤ w && w < k / 8 + 4144).map fun w =>
      if w < k / 8 + 4096 then w - k / 8 else w - k / 8 - 32 }

/-- A tail is copied to a tail page, its poison with it (R298, R366). -/
def State.putPage (s : State) (k : Nat) (t : TailSlot) : State :=
  let s := s.store k ((List.range 32768).map fun i => t.bytes.getD i 0)
  let s := s.store (k + 0x8100) ((List.range 128).map fun i => t.sigs.getD i 0)
  t.bad.foldl (fun s w => s.taint (k / 8 + if w < 4096 then w else w + 32)) s

/-- A sequence's tail, wherever it lies. -/
def tailW (q : Seq) : Work (Option TailSlot) := do
  match q.tail with
  | .empty => pure none
  | .slot die n =>
    modify fun s => s.readUnits fun x => match x with
      | .tail d m _ => d == die && m == n
      | _ => false
    let s ← get
    pure (some ((s.tails.find? (tailKey die n)).getD ⟨[], [], []⟩))
  | .page b =>
    let k ← blockW 0 b
    modify fun s => (s.readMem k 32768).readMem (k + 0x8100) 128
    let s ← get
    pure (some (s.pageTail k))

/-- A BF16 row of a tail: its codes; poison fails (R366). Row t of keys or values. -/
def tailElemsW (ts : TailSlot) (value : Bool) (t w : Nat) : Work (List Nat) := do
  let off := (if value then 16384 else 0) + 1024 * t
  if (wordsOf off (2 * w)).any fun x => ts.bad.contains x then failW .ecc 0
  else pure ((List.range w).map fun d => (ts.bytes.getD (off + 2 * d) 0).toNat + 256 * (ts.bytes.getD (off + 2 * d + 1) 0).toNat)

/-- The signature of tail token t (R297, R298). -/
def tailSigW (ts : TailSlot) (t : Nat) : Work Nat := do
  if ts.bad.contains (4096 + t) then failW .ecc 0 else pure (bytesNat ((List.range 8).map fun i => ts.sigs.getD (8 * t + i) 0))

/-- The first token of the tail and how many it holds (R297). -/
def tailSpan (r : Rec) (q : Seq) : Nat × Nat :=
  if r.n % 16 ≠ 0 then (16 * (r.n / 16), r.n % 16) else if q.full then (r.n - 16, 16) else (r.n, 0)

/-- The tail slots that gathers not complete started with: they are not free yet, though released (R300). -/
def State.gatheredTails (s : State) : List Nat :=
  s.ectxs.flatMap fun x => x.2.pend.filterMap fun o => o.gather.bind Gather.slot

/-- The lowest free tail slot of a die within its share (R229): 256 slots in 8 MiB. -/
def State.freeTail (s : State) (die : Nat) : Option Nat :=
  let held := s.gatheredTails
  lowestFree (256 * SMap.getD s.pkg.shares die 0) fun n =>
    (s.tails.find? (tailKey die n)).isSome || held.contains (tailKey die n)

/-- The sequence whose tail slot on a die is evicted: least recently appended to, then the lowest slot (R298). -/
def State.victimTail (s : State) (die : Nat) : Option (Nat × Nat) :=
  let held := s.seqs.filterMap fun q => match q.2.tail with
    | .slot d n => if d = die then some (q.1, n, q.2.appended) else none
    | _ => none
  (held.foldl (fun b x => match b with
    | none => some x
    | some y => if x.2.2 < y.2.2 || x.2.2 == y.2.2 && x.2.1 < y.2.1 then some x else b) none).map fun x => (x.1, x.2.1)

/-- Take a free slot of a die, evicting another tail if need be (R298). -/
def takeSlotW (die : Nat) : Work Nat := do
  let s ← get
  match s.freeTail die with
  | some n =>
    modify fun s => { s with tails := s.tails.insert (tailKey die n) ⟨[], [], []⟩ }
    pure n
  | none =>
    match s.victimTail die with
    | none => failW .prot 0
    | some (key, n) =>
      let space := key / 2 ^ 64
      let block := ((s.ctxs.find? space).map Ctx.pool0).bind fun p => p.find? fun b => blockDie b == die
      match block with
      | none => failW .prot 0
      | some b =>
        let k ← blockW 0 b
        modify fun s =>
          let s := s.putPage k ((s.tails.find? (tailKey die n)).getD ⟨[], [], []⟩)
          let s := s.modBlocks space fun x => x.setPool 0 (setErase x.pool0 b)
          { s with seqs := s.seqs.modify key fun q => { q with tail := .page b }
                   tails := s.tails.insert (tailKey die n) ⟨[], [], []⟩ }
        pure n

/-- Give a tail page back: zeroed, and its block returned to the pool (R298, R303). -/
def State.freePage (s : State) (space b : Nat) : State :=
  match s.blockMem 0 b with
  | some k => (s.zeroBytes k blockBytes).modBlocks space fun x => x.setPool 0 (setInsert x.pool0 b)
  | none => s

/-- Release a sequence's tail (R297, R298). -/
def State.releaseTail (s : State) (space : Nat) (q : Seq) : State :=
  match q.tail with
  | .empty => s
  | .slot die n => { s with tails := s.tails.erase (tailKey die n) }
  | .page b => s.freePage space b

/-- The tail of a sequence in a slot on member 0's die: a new one, the one it has, or its evicted one brought back (R297, R298). -/
def tailSlotW (a : Agent) (rec : Nat) : Work (Nat × Nat) := do
  let q ← seqW a rec
  let die := (q.members.head?).getD 0
  match q.tail with
  | .slot d n => pure (d, n)
  | .empty =>
    let n ← takeSlotW die
    modify fun s => s.modSeq a.space rec fun q => { q with tail := .slot die n }
    pure (die, n)
  | .page b =>
    let k ← blockW 0 b
    let n ← takeSlotW die
    modify fun s =>
      let s := { s with tails := s.tails.insert (tailKey die n) (s.pageTail k) }
      (s.freePage a.space b).modSeq a.space rec fun q => { q with tail := .slot die n }
    pure (die, n)

/-! ### Appending and flushing (R197, R297, R299, R301) -/

/-- BF16 from FP32, RNE. -/
def toBf16 (w : Word) : Nat := bf16.enc 0 (f32 w)

/-- Signature bit j of a key from its BF16 codes and the projection's (R301). -/
def sigBit (key proj : List Nat) : Bool :=
  let terms := (key.zip proj).map fun x => FV.mul (bf16.dec x.1) (bf16.dec x.2)
  let rec go : Nat → List FV → Word → Word
    | 0, _, acc => acc
    | k + 1, ts, acc =>
      if ts.isEmpty then acc
      else
        let y := vround (FV.sum 0 (ts.take 8))
        go k (ts.drop 8) (vround (FV.add 0 (f32 acc) (f32 y)))
  FV.cmp (f32 (go (terms.length + 1) terms 0)) (.fin false 0 0) == some .gt

/-- The key signature of a token (R301). -/
def signatureW (a : Agent) (r : Rec) (key : List Nat) : Work Nat := do
  let bs ← readW a r.sigproj (128 * r.width)
  let proj (d j : Nat) : Nat := bytesNat ((bs.drop (128 * d + 2 * j)).take 2)
  pure ((List.range 64).foldl (fun n j => if sigBit key ((List.range r.width).map fun d => proj d j) then n + 2 ^ j else n) 0)

/-- Bytes of an element of the cache format (R295). -/
def kvBytes (fmt : Nat) : Nat := if fmt = 2 then 2 else 1

/-- The exact value of a cache code (R292). -/
def kvValue (fmt c : Nat) : FV :=
  match fmt with
  | 0 => e4m3.dec c
  | 1 => e5m2.dec c
  | 2 => bf16.dec c
  | _ => FV.ofInt (BitVec.ofNat 8 c).toInt

/-- The largest finite value of a quantised cache format (R299). -/
def kvMax (fmt : Nat) : Nat := match fmt with | 0 => 448 | 1 => 57344 | _ => 127

/-- The exact quotient of two finite values as a conversion sees it: enough bits that its rounding to 8 bits is the exact one's. -/
def quotient (x y : FV) : FV :=
  match x, y with
  | .fin a m e, .fin b n g =>
    let sh := 64 + bitLen n
    let t := m * 2 ^ sh
    -- one more bit marks a remainder
    .fin (a != b) (2 * (t / n) + (if t % n = 0 then 0 else 1)) (e - g - sh - 1)
  | _, _ => .nan

/-- Quantise one BF16 code with block scale s (R299). -/
def quantise (fmt : Nat) (s : FV) (c : Nat) : Nat :=
  if fmt = 2 then c
  else match bf16.dec c with
    | .nan => if fmt = 3 then 0 else 0x7F
    | .inf neg => match fmt with
      | 0 => if neg then 0xFE else 0x7E
      | 1 => if neg then 0xFB else 0x7B
      | _ => if neg then 0x81 else 0x7F
    | x => match fmt with
      | 0 => e4m3.convert true (quotient x s)
      | 1 => e5m2.convert true (quotient x s)
      | _ => (BitVec.ofInt 8 (FV.clampInt 0 (-127) 127 (quotient x s))).toNat

/-- The largest finite magnitude of some BF16 codes, as an FP32 word (R299). -/
def maxAbs (cs : List Nat) : Word :=
  (cs.filter fun c => match bf16.dec c with | .fin _ _ _ => true | _ => false).foldl (fun m c => vmax m
    (vround (bf16.dec (c % 2 ^ 15)))) 0

/-- The block scale for a largest magnitude (R299). -/
def blockScale (fmt : Nat) (a : Word) : Word :=
  if fmt = 2 || a == 0 then 0x3F800000 else BitVec.ofNat 32 (fp32.div 0 (f32 a) (FV.ofInt (kvMax fmt)))

/-- The atomic maximum of R299 on an absolute-maximum word. -/
def amaxW (a : Agent) (va : Nat) (x : Word) : Work Unit := do
  let k ← reachW a va accEngineWrite
  let s ← get
  if s.poisoned k 4 then failW .ecc va
  else modify fun s => s.store k (wordBytes (atomicNew 5 (bytesWord (s.bytes k 4)) x 0))

/-- Flush the full tail, whose last token is i, into its logical block (R299); the caller has checked its entry. -/
def flushW (a : Agent) (rec : Nat) (r : Rec) (i block : Nat) : Work Unit := do
  let q ← seqW a rec
  let tv ← tailW q
  match tv with
  | none => pure ()
  | some v =>
    let k ← blockW 0 block
    let part (value : Bool) : Work Unit := do
      let rows ← (List.range 16).mapM fun t => tailElemsW v value t r.width
      let m := maxAbs rows.flatten
      let s := blockScale r.kvfmt m
      let e := kvBytes r.kvfmt
      let base := if value then 0x4000 else 0
      for row in rows.zipIdx do
        modify fun st => st.store (k + base + 1024 * row.2) (row.1.flatMap fun c => natBytes e (quantise r.kvfmt (f32 s) c))
      modify fun st => st.store (k + 0x8000 + (if value then 4 else 0)) (wordBytes s)
      amaxW a (r.amax + (if value then 4 else 0)) m
    part false
    part true
    for t in List.range 16 do
      let sg ← tailSigW v t
      modify fun st => st.store (k + 0x8100 + 8 * t) (natBytes 8 sg)
    setEntryW a r i 2 0 block
    modify fun s => (s.releaseTail a.space q).modSeq a.space rec fun q => { q with tail := .empty, full := false }

/-- Write one token into the tail (R197, R297): its rows and its signature. -/
def appendW (a : Agent) (rec : Nat) (r : Rec) (t : Nat) (key value : List Nat) : Work Unit := do
  let (die, n) ← tailSlotW a rec
  let sg ← signatureW a r key
  modify fun s =>
    let put (m : SMap Byte) (off : Nat) (bs : List Byte) : SMap Byte :=
      (bs.zipIdx).foldl (fun m b => SMap.put 0 m (off + b.2) b.1) m
    { s with tails := s.tails.modify (tailKey die n) fun ts =>
        { ts with
          bytes := put (put ts.bytes (1024 * t) (key.flatMap (natBytes 2))) (16384 + 1024 * t) (value.flatMap (natBytes 2))
          sigs := put ts.sigs (8 * t) (natBytes 8 sg)
          bad := ts.bad.filter fun w => !(128 * t ≤ w && w < 128 * t + key.length / 4 ||
            2048 + 128 * t ≤ w && w < 2048 + 128 * t + value.length / 4 || w == 4096 + t) } }

/-- The FP32 rows that a KVAPP appends (R197): keys and values of each token. -/
def kvRowsW (a : Agent) (o : EOp) (r : Rec) (count : Nat) (src : KvSource) : Work (List (List Word × List Word)) := do
  match src with
  | .tiles k v =>
    let s ← get
    let row (n i : Nat) : Work (List Word) := do
      if (s.slotOf o n).poisoned (256 * i) (4 * r.width) then failW .ecc 0
      else
        let x := s.arr o n
        pure ((List.range r.width).map fun d => wordAt x i d)
    (List.range count).mapM fun i => do
      let ks ← row k i
      let vs ← row v i
      pure (ks, vs)
  | .memory addr =>
    let row (base i : Nat) : Work (List Word) := do
      let bs ← readW a (addr.toNat + base + 4 * r.width * i) (4 * r.width)
      pure ((List.range r.width).map fun d => bytesWord ((bs.drop (4 * d)).take 4))
    if addr &&& 3 ≠ 0 then failW .align addr.toNat
    else (List.range count).mapM fun i => do
      let ks ← row 0 i
      let vs ← row (4 * r.width * count) i
      pure (ks, vs)

/-- The width that a space's policy asks for at N tokens (R317); 1 where it asks for none. -/
def State.autoWidth (s : State) (space n : Nat) : Nat :=
  match s.ctxs.find? space with
  | none => 1
  | some x => if x.policy.tokens = 0 then 1 else min x.policy.width (max 1 ((n + x.policy.tokens - 1) / x.policy.tokens))

/-- KVAPP (R197, R297): its checks, the tokens one by one with the flushes that autoflush asks for, then N. -/
def kvappW (a : Agent) (o : EOp) (rec count : Nat) (src : KvSource) : Work Unit := do
  let r ← recW a rec
  let q ← seqW a rec
  let (_, held) := tailSpan r q
  let wide := match src with | .tiles _ _ => 64 < r.width | .memory _ => false
  if wide || 2 ^ 32 - 1 < r.n + count || (!r.autoflush && 16 < held + count) then failW .illegal rec
  else
    let fills := if r.autoflush then (List.range (held + count)).filterMap fun i =>
        if (r.n + i + 1) % 16 = 0 ∧ i < count then some ((r.n + i) / 16) else none
      else []
    let entries ← fills.mapM fun i => do
      let e ← entryW a r i
      if e.1 = 1 && e.2.1 = 0 then pure (i, e.2.2) else failW .illegal rec
    let rows ← kvRowsW a o r count src
    for x in rows.zipIdx do
      let tok := r.n + x.2
      appendW a rec r (tok % 16) (x.1.1.map toBf16) (x.1.2.map toBf16)
      match entries.find? fun e => (tok + 1) % 16 == 0 && e.1 == tok / 16 with
      | some e => flushW a rec r e.1 e.2
      | none => pure ()
    writeW a rec (natBytes 4 (r.n + count))
    modify fun s =>
      let goal := s.autoWidth a.space (r.n + count)
      let full := !r.autoflush && (r.n + count) % 16 == 0
      let s := s.modSeq a.space rec fun q => { q with appended := s.nextOrd, full := full, target := if r.w < goal then goal else q.target }
      { s with nextOrd := s.nextOrd + 1 }

/-- KVFLUSH (R197, R299): a full tail is flushed; anything else is left. -/
def kvflushW (a : Agent) (rec : Nat) : Work Unit := do
  let r ← recW a rec
  let q ← seqW a rec
  if (tailSpan r q).2 ≠ 16 then pure ()
  else
    let i := r.n / 16 - 1
    let e ← entryW a r i
    if e.1 = 1 && e.2.1 = 0 then flushW a rec r i e.2.2 else failW .illegal rec

/-! ### Gathers (R194, R195, R300) -/

/-- Where a token's key and value are found. -/
inductive TokenAt where
  | absent
  | block (b t : Nat)
  | tail (t : Nat)

/-- Distinct numbers. -/
def distinctNats (l : List Nat) : List Nat := l.foldl setInsert []

/-- A gather reads its record and the state of the tail once, when it starts (R300). -/
def gatherW (a : Agent) (ctx : Nat) (o : EOp) (rec : Nat) : Work Gather := do
  match o.gather with
  | some g => pure g
  | none =>
    let bs ← recBytesW a rec
    let q ← seqW a rec
    let tv ← tailW q
    let span := tailSpan (parseRec bs) q
    let slot := match q.tail with
      | .slot die n => some (tailKey die n)
      | _ => none
    let g : Gather := ⟨bs, tv, slot, span.1, span.2, []⟩
    modify fun s => s.modEop ctx o.num fun o => { o with gather := some g }
    pure g

/-- A block entry, read once, when the gather reaches the block; a filled tier-0 block is pinned in the same step (R300). -/
def entryOnceW (a : Agent) (ctx : Nat) (o : EOp) (r : Rec) (i : Nat) : Work (Nat × Nat × Nat) := do
  let s ← get
  match ((s.eop? ctx o.num).bind EOp.gather).bind fun g => g.entries.find? i with
  | some e => pure e
  | none =>
    let e ← entryW a r i
    modify fun s =>
      let s := s.modEop ctx o.num fun o => { o with gather := o.gather.map fun g => { g with entries := g.entries.insert i e } }
      if e.1 = 2 ∧ e.2.1 = 0 then
        (s.modBlocks a.space fun x => x.pin 0 e.2.2).modEop ctx o.num fun o => { o with pins := o.pins ++ [blockKey 0 e.2.2] }
      else s
    pure e

/-- Find a token (R194, R300): the tier-1 blocks met are collected by the caller. -/
def findTokenW (a : Agent) (ctx : Nat) (o : EOp) (g : Gather) (tok : Nat) : Work (TokenAt × Option Nat) := do
  let r := parseRec g.record
  if r.n ≤ tok then pure (.absent, none)
  else if g.first ≤ tok ∧ tok < g.first + g.held then pure (.tail (tok % 16), none)
  else
    let e ← entryOnceW a ctx o r (tok / 16)
    if e.1 ≠ 2 then pure (.absent, none)
    else if e.2.1 = 0 then pure (.block e.2.2 (tok % 16), none)
    else pure (.absent, some (tok / 16))

/-- A gather reads bytes of a block: errors are corrected (R243), the lines counted for migration (R240). -/
def blockRead (a : Agent) (s : State) (ks : List (Nat × Nat)) : State :=
  ks.foldl (fun (s : State) k => s.countLines a.core k.1 ((k.1 + k.2 + 63) / 64 - k.1 / 64)) (s.readParts ks)

/-- The exact values of a present token's key or value row (R194). -/
def tokenRowW (a : Agent) (r : Rec) (tv : Option TailSlot) (value : Bool) : TokenAt → Work (List FV)
  | .absent => pure []
  | .tail t => match tv with
    | none => pure []
    | some v => do
      let cs ← tailElemsW v value t r.width
      pure (cs.map bf16.dec)
  | .block b t => do
    let k ← blockW 0 b
    let e := kvBytes r.kvfmt
    let base := k + (if value then 0x4000 else 0) + 1024 * t
    let scaleAt := k + 0x8000 + (if value then 4 else 0)
    modify fun s => blockRead a s [(base, e * r.width), (scaleAt, 4)]
    let s ← get
    if s.poisoned base (e * r.width) || s.poisoned scaleAt 4 then failW .ecc 0
    else
      let sc := f32 (bytesWord (s.bytes scaleAt 4))
      pure ((List.range r.width).map fun d => FV.mul (kvValue r.kvfmt (s.nat (base + e * d) e)) sc)

/-- GATH (R194): the three tiles and the tier-miss record. -/
def gathW (a : Agent) (ctx : Nat) (o : EOp) (rec k v m start count : Nat) (list : Option Dword) (vblk : Nat) (f : Fmt) : Work Unit := do
  let g ← gatherW a ctx o rec
  let r := parseRec g.record
  let kt := ktOf f.ma
  if kt < r.width then failW .illegal rec
  else
    let toks ← (List.range count).mapM fun j => match list with
      | none => pure (start + j)
      | some l => natW a (l.toNat + 4 * (start + j)) 4
    let found ← toks.mapM (findTokenW a ctx o g)
    let keys ← found.mapM fun x => tokenRowW a r g.tail false x.1
    let vals ← found.mapM fun x => tokenRowW a r g.tail true x.1
    let w := elemBits f.ma
    let code (row : List FV) (d : Nat) : Nat := match row[d]? with | some x => f.toElem x | none => 0
    let krow (j : Nat) : List Byte := packElems w ((List.range kt).map (code (keys.getD j [])))
    let vrow (d : Nat) : List Byte := packElems w ((List.range kt).map fun j => code (vals.getD j []) (64 * vblk + d))
    let present := (found.zipIdx.filter fun x => match x.1.1 with | .absent => false | _ => true).map Prod.snd
    let mask := present.foldl (fun n j => n + 2 ^ j) 0
    modify fun s =>
      let s := s.modSlot o.core k fun t => t.put ((List.range 64).map fun j => (256 * j, krow j))
      let s := s.modSlot o.core v fun t => t.put ((List.range 64).map fun d => (256 * d, vrow d))
      s.modSlot o.core m fun t => t.put [(0, natBytes 8 mask ++ List.replicate 16376 0)]
    tierMissW a rec r (future ctx o.num) (distinctNats (found.filterMap Prod.snd))

/-- SIGF (R195): the list of tokens whose signature is near the query's. -/
def sigfW (a : Agent) (ctx : Nat) (o : EOp) (rec first count : Nat) (list : Dword) (cap : Nat) (query : Dword) (radius : Nat) :
    Work Unit := do
  if list &&& 3 ≠ 0 then failW .align list.toNat
  else
    let gt ← gatherW a ctx o rec
    let r := parseRec gt.record
    let toks := (List.range (min count (r.n - first))).map (first + ·)
    let found ← toks.mapM fun t => do
      let x ← findTokenW a ctx o gt t
      pure (t, x)
    let sigs ← found.mapM fun x => match x.2.1 with
      | .absent => pure none
      | .tail t => match gt.tail with
        | none => pure none
        | some v => do
          let g ← tailSigW v t
          pure (some (x.1, g))
      | .block b t => do
        let k ← blockW 0 b
        modify fun s => blockRead a s [(k + 0x8100 + 8 * t, 8)]
        let s ← get
        if s.poisoned (k + 0x8100 + 8 * t) 8 then failW .ecc 0 else pure (some (x.1, s.nat (k + 0x8100 + 8 * t) 8))
    let near (g : Nat) : Bool :=
      popc (loWord (BitVec.ofNat 64 g ^^^ query)) + popc (hiWord (BitVec.ofNat 64 g ^^^ query)) ≤ radius
    let passed := (sigs.filterMap id).filter fun x => near x.2
    let kept := passed.take cap
    writeW a list.toNat (natBytes 4 (kept.length + if cap < passed.length then 2 ^ 31 else 0) ++ kept.flatMap fun x => natBytes 4 x.1)
    tierMissW a rec r (future ctx o.num) (distinctNats (found.filterMap fun x => x.2.2))

/-! ### Block commands (R196, R198, R303, R308) -/

/-- KVREL (R303). -/
def kvrelW (a : Agent) (rec first count : Nat) : Work Unit := do
  let r ← recW a rec
  for i in (List.range (min count (r.length - first))).map (first + ·) do
    let e ← entryW a r i
    if e.1 = 0 then pure ()
    else
      setEntryW a r i 0 0 0
      modify fun s => s.modBlocks a.space fun x => x.drop e.2.1 e.2.2
  let es ← (List.range r.length).mapM fun i => do
    let e ← entryW a r i
    pure (if e.1 = 0 then 0 else i + 1)
  writeW a (rec + 12) (natBytes 4 (es.foldl max 0))

/-- PAGEIN (R198, R308): every tier-1 block of the range in ascending order, or none. -/
def pageinW (a : Agent) (rec first count : Nat) : Work Unit := do
  let r ← recW a rec
  let es ← ((List.range (min count (r.length - first))).map (first + ·)).mapM fun i => do
    let e ← entryW a r i
    pure (i, e)
  let need := es.filter fun x => x.2.1 == 2 && x.2.2.1 == 1
  let s ← get
  let free := ((s.ctxs.find? a.space).map Ctx.pool0).getD []
  if free.length < need.length then failW .prot 0
  else
    for x in need.zip free do
      let src ← blockW 1 x.1.2.2.2
      let dst ← blockW 0 x.2
      setEntryW a r x.1.1 2 0 x.2
      modify fun s => ((s.readMem src blockBytes).copyBytes src dst blockBytes).modBlocks a.space fun c => (c.take 0 x.2 1).drop 1 x.1.2.2.2

/-- KVALLOC (R196, R296): zeroed tier-0 blocks at the end of the table, or none and all ones. -/
def kvallocW (a : Agent) (rec count : Nat) : Work Word := do
  let r ← recW a rec
  let s ← get
  let free := ((s.ctxs.find? a.space).map Ctx.pool0).getD []
  if free.length < count then pure 0xFFFFFFFF
  else
    for x in (free.take count).zipIdx do
      setEntryW a r (r.length + x.2) 1 0 x.1
      modify fun s => s.modBlocks a.space fun c => c.take 0 x.1 1
    writeW a (rec + 12) (natBytes 4 (r.length + count))
    pure (BitVec.ofNat 32 r.length)

/-- RPUB (R202, R307): the two tiles into the member's slot; poison is copied (R366). -/
def rpubW (a : Agent) (o : EOp) (rec member acc rst : Nat) : Work Unit := do
  if member = 15 then pure ()
  else
    let r ← recW a rec
    let put (base slot : Nat) : Work Unit := do
      let s ← get
      let x := s.arr o slot
      let ks ← keysW a (r.exch + 32768 * member + base) 16384 accEngineWrite
      modify fun s =>
        (s.putParts ks ((List.range 16384).map (byteAt x))).taintAt ks ((s.slotOf o slot).bad.map (8 * ·))
    put 0 acc
    put 16384 rst

end Sys2Proof.Machine
end

