-- ==== Sys2Proof/Machine/EngineIssue.lean ====
section
/-! DEFINITION. Copies, gathers, fabric, encoder and cache commands of format GE up to the moment their operation is numbered (R153 to
R155, R183 to R202). -/
namespace Sys2Proof.Machine

/-- A lane instruction's result in one of these s registers of the issuing group is still to come (R18). -/
def State.coming (s : State) (reads : List Nat) : Bool := s.issuer?.any fun c => reads.any c.grp.sComing

/-- A GE command (R155, R184): the s registers it reads, the tiles it names with the kinds they must have, what its entry makes
ILLEGAL, the first fault its entry raises at issue after that, its context and its command. -/
def geCommand (reads : List Nat) (tiles : List (Nat × Option Nat)) (legal : Issuer → Bool) (check : State → Issuer → Option Cause)
    (ctx : State → Issuer → Nat) (q : BitVec 4) (cmd : State → Issuer → (Nat → Nat) → ECmd) (s : State) : Res :=
  if s.coming reads then withIssuer s fun c => c.stall s
  else tileCommand tiles legal s fun c slot =>
    if reads.any c.grp.sbad.contains then c.raise .ecc s
    else match check s c with
      | some cause => c.raise cause s
      | none => c.engine (ctx s c) (some q.toNat) (cmd s c slot) s

/-- n consecutive s registers from a. -/
def sFrom (a : BitVec 6) (n : Nat) : List Nat := (List.range n).map (a.toNat + ·)

/-- s[a + i] and S64(a + i) of the issuing group (R184). -/
def Issuer.desc (c : Issuer) (a : BitVec 6) (i : Nat) : Nat := (c.grp.sreg (a.toNat + i)).toNat
def Issuer.desc64 (c : Issuer) (a : BitVec 6) (i : Nat) : Dword := c.grp.spair (a.toNat + i)

/-- No check of its own at issue. -/
def noCheck (_ : State) (_ : Issuer) : Option Cause := none

def copyCtx (_ : State) (c : Issuer) : Nat := c.grp.cctx
def gatherCtx (_ : State) (c : Issuer) : Nat := c.grp.gctx
def fabricCtx (s : State) (c : Issuer) : Nat := s.fctxOf c.team

/-! ### Copies (R184 to R187) -/

/-- The loop nest of a copy, level 0 first: count, source stride, destination stride (R184). -/
def Issuer.levels (c : Issuer) (a : BitVec 6) (depth : Nat) : List (Nat × Int × Int) :=
  (List.range depth).map fun i =>
    (c.desc a (4 + 3 * i), (c.grp.sreg (a.toNat + 5 + 3 * i)).toInt, (c.grp.sreg (a.toNat + 6 + 3 * i)).toInt)

/-- An ordinary window (R134). -/
def ordinary (va : Dword) : Bool := windowOf va.toNat < 2

/-- R185: the windows that CPY's base addresses may lie in. -/
def cpyCheck (a : BitVec 6) (_ : State) (c : Issuer) : Option Cause :=
  let x := c.desc64 a 0
  let y := c.desc64 a 2
  if windowOf x.toNat = 4 ∨ windowOf y.toNat = 4 then some .xlat
  else if !ordinary x || !ordinary y then some .prot else none

/-- R185: exactly one base address of CPYF lies in the unicast window; R153: a launch without a fabric context raises PROT. -/
def cpyfCheck (a : BitVec 6) (s : State) (c : Issuer) : Option Cause :=
  let x := windowOf (c.desc64 a 0).toNat
  let y := windowOf (c.desc64 a 2).toNat
  if x = 4 ∨ y = 4 then some .xlat
  else if (s.ectxs.find? (s.fctxOf c.team)).isNone then some .prot
  else if (x = 2 ∧ y < 2) ∨ (y = 2 ∧ x < 2) then none else some .prot

/-- R188, R153. -/
def mcstCheck (a : BitVec 6) (s : State) (c : Issuer) : Option Cause :=
  let x := windowOf (c.desc64 a 0).toNat
  let y := windowOf (c.desc64 a 2).toNat
  if x = 4 ∨ y = 4 then some .xlat
  else if (s.ectxs.find? (s.fctxOf c.team)).isNone then some .prot
  else if y = 3 ∧ x < 2 then none else some .prot

/-- R185. -/
def execCpy (q : BitVec 4) (a b : BitVec 6) (d : BitVec 3) (s : State) : Res :=
  geCommand (b.toNat :: sFrom a (4 + 3 * d.toNat)) [] (fun _ => true) (cpyCheck a) copyCtx q
    (fun _ c _ => .cpy (c.desc64 a 0) (c.desc64 a 2) (c.grp.sreg b.toNat).toNat (c.levels a d.toNat) false) s

/-- R186. -/
def execTld (q : BitVec 4) (a : BitVec 6) (t : BitVec 5) (r : BitVec 6) (s : State) : Res :=
  geCommand (sFrom a 3) [(t.toNat, none)] (fun _ => true) noCheck copyCtx q
    (fun _ c slot => .tld (slot t.toNat) (r.toNat + 1) (c.desc64 a 0) (c.grp.sreg (a.toNat + 2)).toInt) s

/-- R186. -/
def execTst (q : BitVec 4) (a : BitVec 6) (t : BitVec 5) (r : BitVec 6) (s : State) : Res :=
  geCommand (sFrom a 3) [(t.toNat, none)] (fun _ => true) noCheck copyCtx q
    (fun _ c slot => .tst (slot t.toNat) (r.toNat + 1) (c.desc64 a 0) (c.grp.sreg (a.toNat + 2)).toInt) s

/-- WBLD fixes at issue what its entry will be (R171); the bytes come later. -/
def State.noteEntry (s : State) (c : Issuer) (e width scale : Nat) (packed : Bool) : State :=
  if ((s.ectxs.find? c.grp.cctx).map ECtx.full).getD true then s
  else s.modCore c.team.core fun k =>
    let old := k.weights.getD e ⟨0, false, 0, 0, [], []⟩
    { k with weights := k.weights.insert e { old with width := width, compressed := packed, scale := scale, space := c.team.space } }

/-- R187: a reserved width or scale code, or a scale where none can be, is ILLEGAL. -/
def execWbld (q : BitVec 4) (a : BitVec 6) (e : BitVec 5) (k w : BitVec 2) (c : Bool) (s : State) : Res :=
  if s.coming (sFrom a 2) then withIssuer s fun i => i.stall s
  else tileCommand [] (fun _ => w != 3 && k != 3 && !(k != 0 && (!c || w == 0))) s fun i _ =>
    if (sFrom a 2).any i.grp.sbad.contains then i.raise .ecc s
    else i.engine i.grp.cctx (some q.toNat) (.wbld e.toNat (i.desc64 a 0) c w.toNat k.toNat)
      (s.noteEntry i e.toNat w.toNat k.toNat c)

/-- R185. -/
def execCpyf (q : BitVec 4) (a b : BitVec 6) (d : BitVec 3) (s : State) : Res :=
  geCommand (b.toNat :: sFrom a (4 + 3 * d.toNat)) [] (fun _ => true) (cpyfCheck a) fabricCtx q
    (fun _ c _ => .cpy (c.desc64 a 0) (c.desc64 a 2) (c.grp.sreg b.toNat).toNat (c.levels a d.toNat) true) s

/-- R188. -/
def execMcst (q : BitVec 4) (a b : BitVec 6) (s : State) : Res :=
  geCommand (b.toNat :: sFrom a 4) [] (fun _ => true) (mcstCheck a) fabricCtx q
    (fun _ c _ => .mcst (c.desc64 a 0) (c.desc64 a 2) (c.grp.sreg b.toNat).toNat) s

/-- R188: the other bits of the group word are 0 (R184). -/
def execColl (q : BitVec 4) (a : BitVec 6) (k : BitVec 2) (s : State) : Res :=
  geCommand (sFrom a 6) [] (fun c => c.desc a 5 < 4096)
    (fun s c => if (s.ectxs.find? (s.fctxOf c.team)).isNone then some .prot else none) fabricCtx q
    (fun _ c _ => .coll k.toNat (c.desc64 a 0) (c.desc64 a 2) (c.desc a 4) (c.desc a 5)) s

/-- The open session that ENC names, granted to an address space (R189, R362). -/
def State.session? (s : State) (space id : Nat) : Option Session :=
  (List.find? (fun (x : Nat × Session) => x.2.id == id && x.2.valid && x.2.status == 0 && x.2.space == space) s.pkg.sessions).map Prod.snd

/-- R189: the session's context takes the operation. -/
def execEnc (q : BitVec 4) (a b : BitVec 6) (s : State) : Res :=
  let id (c : Issuer) : Nat := fld (c.grp.sreg b.toNat).toNat 0 24
  geCommand (b.toNat :: sFrom a 2) [] (fun _ => true)
    (fun s c => if (s.session? c.team.space (id c)).isNone then some .prot else none) (fun _ c => id c) q
    (fun _ c _ => .enc (c.desc64 a 0) (id c)) s

/-! ### Gathers and cache commands (R194 to R198) -/

/-- A token count of R184. -/
def countOk (n : Nat) : Bool := 1 ≤ n && n ≤ 64

/-- R194: keys into t[sb], values into t[sb+1], the mask into t[sb+2]; a reserved tile format is ILLEGAL (R26). -/
def execGath (q : BitVec 4) (a : BitVec 6) (t : BitVec 5) (vblk : BitVec 3) (l : Bool) (s : State) : Res :=
  geCommand (sFrom a (if l then 6 else 4)) [(t.toNat, some 2), (t.toNat + 1, some 2), (t.toNat + 2, some 5)]
    (fun c => c.fmt.elemOk && countOk (c.desc a 3)) noCheck gatherCtx q
    (fun _ c slot => .gath (slot t.toNat) (slot (t.toNat + 1)) (slot (t.toNat + 2)) (c.desc64 a 0) (c.desc a 2) (c.desc a 3)
      (if l then some (c.desc64 a 4) else none) vblk.toNat c.spl.fmt) s

/-- R195. -/
def execSigf (q : BitVec 4) (a b : BitVec 6) (r : BitVec 6) (s : State) : Res :=
  geCommand (b.toNat :: (b.toNat + 1) :: sFrom a 7) [] (fun _ => true) noCheck gatherCtx q
    (fun _ c _ => .sigf (c.desc64 a 0) (c.desc a 2) (c.desc a 3) (c.desc64 a 4) (c.desc a 6) (c.grp.spair b.toNat) r.toNat) s

/-- R198. -/
def execPagein (q : BitVec 4) (a : BitVec 6) (s : State) : Res :=
  geCommand (sFrom a 4) [] (fun _ => true) noCheck copyCtx q
    (fun _ c _ => .pagein (c.desc64 a 0) (c.desc a 2) (c.desc a 3)) s

/-- R196. -/
def execKvrel (q : BitVec 4) (a : BitVec 6) (s : State) : Res :=
  geCommand (sFrom a 4) [] (fun _ => true) noCheck gatherCtx q
    (fun _ c _ => .kvrel (c.desc64 a 0) (c.desc a 2) (c.desc a 3)) s

/-- R197: the tile form. -/
def execKvapp (q : BitVec 4) (a : BitVec 6) (t : BitVec 5) (s : State) : Res :=
  geCommand (sFrom a 3) [(t.toNat, some 0), (t.toNat + 1, some 0)] (fun c => countOk (c.desc a 2)) noCheck gatherCtx q
    (fun _ c slot => .kvapp (c.desc64 a 0) (c.desc a 2) (.tiles (slot t.toNat) (slot (t.toNat + 1)))) s

/-- R197: the memory form. -/
def execKvappMem (q : BitVec 4) (a : BitVec 6) (s : State) : Res :=
  geCommand (sFrom a 6) [] (fun c => countOk (c.desc a 2)) noCheck gatherCtx q
    (fun _ c _ => .kvapp (c.desc64 a 0) (c.desc a 2) (.memory (c.desc64 a 4))) s

/-- R197, R153: on the copy context. -/
def execKvflush (q : BitVec 4) (a : BitVec 6) (s : State) : Res :=
  geCommand (sFrom a 2) [] (fun _ => true) noCheck copyCtx q (fun _ c _ => .kvflush (c.desc64 a 0)) s

/-- R202: ILLEGAL outside an open step of the record; the partial output and its row state go to the group's member slot. -/
def execRpub (q : BitVec 4) (a : BitVec 6) (t : BitVec 5) (s : State) : Res :=
  geCommand (sFrom a 2) [(t.toNat, some 0), (t.toNat + 1, some 3)]
    (fun c => match c.grp.step with
      | some r => !r.closing && r.record == (c.desc64 a 0).toNat
      | none => false) noCheck copyCtx q
    (fun _ c slot => .rpub (c.desc64 a 0) ((c.grp.step.map RopeStep.member).getD 15) (slot t.toNat) (slot (t.toNat + 1))) s

end Sys2Proof.Machine
end

