-- ==== Sys2Proof/Machine/Rope.lean ====
section
/-! DEFINITION. Rope steps, width requests and KVALLOC (R196, R199 to R201, R305): their checks at issue and the package scheduler's
answers. -/
namespace Sys2Proof.Machine

/-- A fault met at issue that is held like a load's (R136, R201): the instruction is done and has no other effect. -/
def Issuer.heldFault (c : Issuer) (cause : Cause) (addr : Nat) (s : State) : State :=
  let f : FaultRec :=
    { c.record cause c.spl.act with
      op := c.grp.nextOp, addr := BitVec.ofNat 64 addr, issue := c.grp.issued + 1, held := true }
  c.finish (s.modGroup c.tid c.gid fun g => Group.sweep (g.push { c.lop .unit with faults := [f] }))

/-- Work of the issuing instruction on a record (R293): ILLEGAL and ALIGN are precise, a miss is parked, any other failure is held
and leaves nothing done. -/
def Issuer.recordWork {α : Type} (c : Issuer) (w : Agent → Work α) (s : State) (go : α → State → State) : State :=
  let a : Agent := ⟨c.team.space, c.team.core, c.declined, false⟩
  match runWork s a (.split c.tid c.gid c.sid) (w a) with
  | .done x s => go x s
  | .parked tok s => c.missed tok s
  | .failed .illegal _ _ => c.meet (.fault .illegal) s
  | .failed .align _ _ => c.meet (.fault .align) s
  | .failed cause addr _ => c.heldFault cause addr s

/-- The group's place in a sequence's members: the position of its die, 15 if it is none (R199, R305). -/
def memberOf (members : List Nat) (core : Nat) : Nat :=
  let i := members.findIdx (· == dieOf core)
  if i < members.length then i else 15

/-- The one access through which an instruction of the package scheduler waits for its record; it keeps ACT for a fault's FLT. -/
def recordAcc (act : Mask) (rec : Nat) : List LaneAcc :=
  [{ lane := 0, part := 0, ord := 0, size := 0, ea := BitVec.ofNat 64 rec, key := none, pad := none, data := [], cmp := act, token := none
     replay := false, declined := false, sent := false }]

/-- R199: a step opens on the sequence; while the group's last step closes, or a commit is pending (R200), it is held. -/
def execRstepBegin (a b : BitVec 6) (s : State) : Res :=
  groupWordAfter (fun c => if c.grp.step.any (fun r => !r.closing) then some .illegal else none) [a.toNat, a.toNat + 1] [] s fun c =>
    let rec' := (c.grp.spair a.toNat).toNat
    match c.grp.step with
    | some _ => c.retry (.rope rec') s
    | none =>
      c.recordWork (fun ag => do let _ ← openRec ag rec'; seqW ag rec') s fun q s =>
        if q.commit then c.retry (.rope rec') s
        else
          let step : RopeStep := ⟨rec', memberOf q.members c.team.core, s.nextOrd, false⟩
          let op := { c.lop (.view true rec' b.toNat) with
            sdests := (List.range 6).map (b.toNat + ·), accs := recordAcc c.spl.act rec' }
          let s := (s.modSeq c.team.space rec' fun q => { q with steps := q.steps ++ [(c.tid, c.gid)] }).modGroup c.tid c.gid
            fun g => { g with step := some step }.push op
          c.finish { s with nextOrd := s.nextOrd + 1 }

/-- R199: ILLEGAL unless the group's open step is the record's; the step is closing from now on. -/
def execRstepEnd (a : BitVec 6) (s : State) : Res :=
  groupWordAfter (fun c =>
      if c.grp.step.any (fun r => !r.closing && r.record == (c.grp.spair a.toNat).toNat) then none else some .illegal)
    [a.toNat, a.toNat + 1] [] s fun c =>
    let rec' := (c.grp.spair a.toNat).toNat
    let s := s.modGroup c.tid c.gid fun g =>
      Group.push { g with step := g.step.map fun r => { r with closing := true } } (c.lop (.stepEnd rec' s.nextOrd))
    c.finish { s with nextOrd := s.nextOrd + 1 }

/-- RWIDEN and RNARROW (R201): the request field of the record, unless the request does not change the width its way. -/
def widthRequest (widen : Bool) (a w : BitVec 6) (s : State) : Res :=
  groupWord [a.toNat, a.toNat + 1] [] s fun c =>
    let rec' := (c.grp.spair a.toNat).toNat
    c.recordWork (fun ag => do
      let r ← openRec ag rec'
      if (if widen then r.w < w.toNat else w.toNat < r.w) then writeW ag (rec' + 8) (natBytes 1 (r.w + 16 * w.toNat))
      else pure ()) s fun _ s => c.finish s

/-- R201. -/
def execRwiden (a w : BitVec 6) (s : State) : Res := widthRequest true a w s
/-- R201. -/
def execRnarrow (a w : BitVec 6) (s : State) : Res := widthRequest false a w s

/-- R201: the registers of R199 without a step. -/
def execRview (a b : BitVec 6) (s : State) : Res :=
  groupWord [a.toNat, a.toNat + 1] [] s fun c =>
    let rec' := (c.grp.spair a.toNat).toNat
    c.recordWork (fun ag => openRec ag rec') s fun _ s =>
      c.finish (s.modGroup c.tid c.gid fun g =>
        g.push { c.lop (.view false rec' b.toNat) with sdests := (List.range 6).map (b.toNat + ·), accs := recordAcc c.spl.act rec' })

/-- R196. -/
def execKvalloc (a b : BitVec 6) (s : State) : Res :=
  groupWord [a.toNat, a.toNat + 1, a.toNat + 2] [] s fun c =>
    let rec' := (c.grp.spair a.toNat).toNat
    c.recordWork (fun ag => openRec ag rec') s fun _ s =>
      c.finish (s.modGroup c.tid c.gid fun g =>
        g.push { c.lop (.kvalloc rec' (c.desc a 2) b.toNat) with sdests := [b.toNat], accs := recordAcc c.spl.act rec' })

/-- The range of member m of width w over n tokens in granules of `gran` (R305). -/
def memberRange (gran n w m : Nat) : Nat × Nat :=
  if m = 15 then (n, n)
  else
    let u := (n + gran - 1) / gran
    (gran * (m * u / w), min n (gran * ((m + 1) * u / w)))

/-- The registers of R199. -/
def viewWords (r : Rec) (m : Nat) : List Word :=
  let (first, last) := memberRange (2 ^ r.granule) r.n r.w m
  [BitVec.ofNat 32 (fld r.view 0 32), BitVec.ofNat 32 (fld r.view 32 32), BitVec.ofNat 32 (r.w + 16 * m), BitVec.ofNat 32 first,
    BitVec.ofNat 32 last, BitVec.ofNat 32 r.n]

/-- Write consecutive s registers from d. -/
def Group.setWords (g : Group) (d : Nat) (ws : List Word) : Group := (ws.zipIdx).foldl (fun g w => g.setS (d + w.2) w.1) g

/-- Close a group's step towards the sequence (R199). -/
def State.closeStep (s : State) (t g : Nat) : State :=
  match s.teams.find? t, s.group? t g with
  | some T, some G => match G.step with
    | some r =>
      (s.modSeq T.space r.record fun q => { q with steps := q.steps.filter fun x => x != (t, g) }).modGroup t g
        fun G => { G with step := none }
    | none => s
  | _, _ => s

/-- The package scheduler's answer to an RSTEP.begin, RVIEW or KVALLOC. -/
def answerW (a : Agent) (G : Group) (core : Nat) : LKind → Work (Nat × List Word)
  | .view opens rec d => do
    let r ← recW a rec
    let q ← seqW a rec
    let m := if opens then (G.step.map RopeStep.member).getD 15 else memberOf q.members core
    pure (d, viewWords r m)
  | .kvalloc rec count d => do
    let x ← kvallocW a rec count
    pure (d, [x])
  | _ => pure (0, [])

/-- R199, R201, R196: the answer arrives and the registers are written; a miss parks it, any other failure is held and gives back
what was taken (R296). -/
def execViewRegistersWritten (s : State) : Res :=
  match s.ev with
  | .op t g id =>
    match s.acc? t g id 0 with
    | none => notNow "VIEW_REGISTERS_WRITTEN"
    | some (T, G, o, acc) =>
      if !o.kind.isView || acc.token.isSome || G.ops.any (fun x => x.id < id && x.sdests.any o.sdests.contains) then
        notNow "VIEW_REGISTERS_WRITTEN"
      else
        let a : Agent := ⟨T.space, T.core, acc.declined, false⟩
        let close (s : State) : State := match o.kind with
          | .view true _ _ => s.closeStep t g
          | _ => s
        match runWork s a (.lane t g id 0) (answerW a G T.core o.kind) with
        | .done x s =>
          .next (s.modGroup t g fun G => ({ G with ops := G.ops.filter fun x => x.id != id }.setWords x.1 x.2).sweep)
        | .parked tok s =>
          .next (s.modOp t g id fun o => { o with accs := o.accs.map fun b => { b with token := some tok } })
        | .failed cause addr _ =>
          .next (close (s.modGroup t g fun G => (G.modOp id fun o =>
            let x := o.faultLane 0 cause (BitVec.ofNat 64 addr)
            { x with kind := .unit, sdests := [], faults := x.faults.map fun f => { f with lanes := acc.cmp } }).sweep))
  | _ => notNow "VIEW_REGISTERS_WRITTEN"

end Sys2Proof.Machine
end

