-- ==== Sys2Proof/Machine/EngineRun.lean ====
section
/-! DEFINITION. What copies, tile transfers, fabric commands and the encoder do once their operation has started (R150, R185 to R189,
R348, R351, R363, R366). -/
namespace Sys2Proof.Machine

/-! ### Steps of a copy (R185) -/

/-- The loop nest of a copy: count and the two strides of each level, innermost first. -/
abbrev Levels := List (Nat × Int × Int)

/-- A copy's runs, and the steps of a run of len bytes. -/
def runCount (ls : Levels) : Nat := ls.foldl (fun n l => n * l.1) 1
def stepCount (len : Nat) : Nat := (len + 4095) / 4096

/-- The iteration vector of run r, level 0 first. -/
def iterOf : Levels → Nat → List Nat
  | [], _ => []
  | l :: ls, r => r % l.1 :: iterOf ls (r / l.1)

/-- The offset of an iteration with one of the strides. -/
def offsetOf (stride : Int × Int → Int) : Levels → List Nat → Int
  | l :: ls, i :: is => (i : Int) * stride l.2 + offsetOf stride ls is
  | _, _ => 0

/-- The address of a run. -/
def runAddr (base : Dword) (off : Int) : Nat := (base + BitVec.ofInt 64 off).toNat

/-- One step of a copy: its iteration vector, the addresses of its run, where in the run it begins, its bytes. -/
structure CopyStep where
  iters : List Nat
  src : Nat
  dst : Nat
  off : Nat
  n : Nat

/-- Step p of a copy. -/
def copyStep (src dst : Dword) (len : Nat) (ls : Levels) (p : Nat) : CopyStep :=
  let it := iterOf ls (p / stepCount len)
  let off := 4096 * (p % stepCount len)
  ⟨it, runAddr src (offsetOf Prod.fst ls it), runAddr dst (offsetOf Prod.snd ls it), off, min 4096 (len - off)⟩

/-- The window of an address, the two ordinary ones as one. -/
def windowClass (va : Nat) : Nat := if windowOf va < 2 then 0 else windowOf va

/-- A failure of work reports this address (R282). -/
def at' {α : Type} (addr : Nat) (w : Work α) : Work α := tryCatch w fun
  | .fail c _ => failW c addr
  | .miss va code prot => throw (.miss va code prot)

/-- The window checks of a run (R185): a stride must not leave the base address's window. -/
def runWindowsW (src dst : Dword) (x : CopyStep) : Work Unit := do
  if windowClass x.src ≠ windowClass src.toNat then failW .xlat (x.src + x.off)
  else if windowClass x.dst ≠ windowClass dst.toNat then failW .xlat (x.dst + x.off)
  else pure ()

/-- One step of a local copy: the source is translated first; nothing is written if a side fails; poison is copied (R366). -/
def copyStepW (a : Agent) (src dst : Dword) (x : CopyStep) : Work Unit := do
  runWindowsW src dst x
  let xs ← at' (x.src + x.off) (keysW a (x.src + x.off) x.n accEngineRead)
  let ys ← at' (x.dst + x.off) (keysW a (x.dst + x.off) x.n accEngineWrite)
  modify fun s => State.copyParts (2 * (xs.length + ys.length)) (s.readParts xs) xs ys

/-! ### Tiles and packs (R186, R187) -/

/-- The poisoned words among n bytes in parts, as word offsets; both ends are 8-byte aligned. -/
def State.badOffsets (s : State) : List (Nat × Nat) → Nat → List Nat
  | [], _ => []
  | p :: ps, off =>
    ((List.range (p.2 / 8)).filter fun i => s.poison.contains (p.1 / 8 + i)).map (off / 8 + ·) ++ State.badOffsets s ps (off + p.2)

/-- The address of row r of a tile in memory. -/
def rowAddr (addr : Dword) (stride : Int) (r : Nat) : Nat := runAddr addr (stride * r)

/-- The alignment of TLD and TST (R184, R186). -/
def tileAligned (addr : Dword) (stride : Int) : Bool := addr.toNat % 16 == 0 && stride % 16 == 0

/-- R186: rows from memory, with their poison (R366). -/
def tldW (a : Agent) (o : EOp) (t rows : Nat) (addr : Dword) (stride : Int) : Work Unit := do
  if !tileAligned addr stride then failW .align addr.toNat
  else for r in List.range rows do
    let ks ← keysW a (rowAddr addr stride r) 256 accEngineRead
    modify fun s =>
      let s := s.readParts ks
      let bs := ks.flatMap fun k => s.bytes k.1 k.2
      let bad := (s.badOffsets ks 0).map (32 * r + ·)
      s.modSlot o.core t fun x =>
        let y := x.put [(256 * r, bs)]
        { y with bad := bad.foldl setInsert y.bad }

/-- R186: rows to memory, with their poison. -/
def tstW (a : Agent) (o : EOp) (t rows : Nat) (addr : Dword) (stride : Int) : Work Unit := do
  if !tileAligned addr stride then failW .align addr.toNat
  else
    let s ← get
    let x := s.arr o t
    let bad := (s.slotOf o t).bad
    for r in List.range rows do
      let ks ← keysW a (rowAddr addr stride r) 256 accEngineWrite
      modify fun s =>
        (s.putParts ks ((List.range 256).map fun i => byteAt x (256 * r + i))).taintAt ks
          ((bad.filter fun w => w / 32 == r).map fun w => 8 * (w % 32))

/-- The bytes of a pack (R171). -/
def packBytes (packed : Bool) (width scale : Nat) : Nat :=
  let kt := ktOf width
  if !packed then 16384
  else 8192 + 8 * kt + (if scale = 0 then 0 else 64 * (if scale = 1 then kt / 32 else kt / 16))

/-- R187: the pack's bytes, with their poison. -/
def wbldW (a : Agent) (o : EOp) (e : Nat) (addr : Dword) (packed : Bool) (width scale : Nat) : Work Unit := do
  if addr.toNat % 256 ≠ 0 then failW .align addr.toNat
  else
    let ks ← keysW a addr.toNat (packBytes packed width scale) accEngineRead
    modify fun s =>
      let s := s.readParts ks
      let bs := ks.flatMap fun k => s.bytes k.1 k.2
      let bad := s.badOffsets ks 0
      let w : Weight := ((s.core o.core).weights.find? e).getD ⟨width, packed, scale, o.space, [], []⟩
      let keep := w.bad.filter fun x => bs.length ≤ 8 * x
      let w : Weight := { w with bytes := tileMap (bs.zipIdx.foldl (fun x b => x.set! b.2 b.1) (tileArray w.bytes))
                                 bad := bad.foldl setInsert keep }
      s.modCore o.core fun c => { c with weights := c.weights.insert e w }

/-! ### Fabric commands (R150, R185, R188, R348, R351) -/

/-- Packets of an engine operation: it counts what it sends. -/
def State.sendOp (s : State) (ctx num : Nat) (p : Packet) (dest off len : Nat) : State :=
  let domain := ((s.fab.ctxs.find? ctx).map FabCtx.domain).getD 0
  let s := s.sendPacket { p with domain := BitVec.ofNat 16 domain } (.engine ctx num dest off len) ctx
  s.modEop ctx num fun o => { o with sent := o.sent + 1 }

/-- Cut n bytes at a window offset into parts that lie in one 256-byte line each: offset and length. -/
def lineParts : Nat → Nat → Nat → List (Nat × Nat)
  | 0, _, _ => []
  | k + 1, off, n =>
    if n = 0 then []
    else
      let p := min n (256 - off % 256)
      (off, p) :: lineParts k (off + p) (n - p)

/-- The words of a line that bytes off to off + n − 1 of it touch, as a mask. -/
def lineMask (off n : Nat) : Dword :=
  (List.range ((off % 256 + n + 3) / 4 - off % 256 / 4)).foldl (fun m i => m ||| (1#64 <<< (off % 256 / 4 + i))) 0

/-- A write packet for bytes at a window offset of a target. -/
def writePacket (mc : Bool) (target off : Nat) (bs : List Byte) : Packet :=
  let (mask, payload, index) := writeBody (bs.zipIdx.map fun b => (off % 256 + b.2, b.1))
  { Packet.blank with
    type := if mc then 9 else 2
    trailer := !index.isEmpty
    length := BitVec.ofNat 7 payload.length
    target := BitVec.ofNat 12 target
    mc := mc
    line := BitVec.ofNat 64 (off / 256 * 256)
    mask := mask
    payload := payload
    index := index }

/-- A read packet. -/
def readPacket (target off n : Nat) : Packet :=
  { Packet.blank with
    target := BitVec.ofNat 12 target, line := BitVec.ofNat 64 (off / 256 * 256), mask := lineMask off n }

/-- Read n local bytes to be sent in packets: poison fails with the address given (R366). -/
def sendBytesW (a : Agent) (va n : Nat) : Work (List Byte) := do
  let (bs, bad) ← readRawW a va n
  if bad then failW .ecc va else pure bs

/-- Send the packets of one step of a CPYF (R150, R185): writes with the bytes read here, or reads whose answers are written. -/
def cpyfStepW (a : Agent) (ctx num : Nat) (src dst : Dword) (x : CopyStep) : Work Unit := do
  runWindowsW src dst x
  let y := x.src + x.off
  let z := x.dst + x.off
  if windowOf dst.toNat = 2 then
    let bs ← at' y (sendBytesW a y x.n)
    modify fun s => (lineParts (x.n + 1) (fabOffset z) x.n).foldl (fun s p =>
      s.sendOp ctx num (writePacket false (fabTarget z) p.1 ((bs.drop (p.1 - fabOffset z)).take p.2)) 0 0 0) s
  else
    let _ ← at' z (keysW a z x.n accEngineWrite)
    modify fun s => (lineParts (x.n + 1) (fabOffset y) x.n).foldl (fun s p =>
      s.sendOp ctx num (readPacket (fabTarget y) p.1 p.2) (z + (p.1 - fabOffset y)) (p.1 % 256) p.2) s

/-- The line of step p of an MCST: its window offset and how many bytes. -/
def mcstPart (dst : Dword) (len p : Nat) : Nat × Nat :=
  (lineParts (len + 1) (fabOffset dst.toNat) len).getD p (0, 0)

/-- Send one line of an MCST (R150, R188); a group that the context may not use fails with PROT (R348). -/
def mcstStepW (a : Agent) (ctx num : Nat) (src dst : Dword) (len p : Nat) : Work Unit := do
  let s ← get
  let g := fabTarget dst.toNat
  if !s.groupOk ctx g then failW .prot dst.toNat
  else
    let (off, n) := mcstPart dst len p
    let va := src.toNat + (off - fabOffset dst.toNat)
    let bs ← sendBytesW a va n
    modify fun s => s.sendOp ctx num (writePacket true g off bs) 0 0 0

/-- The chunks of a COLL (R351). -/
def collChunks (count : Nat) : Nat := (count + 63) / 64

/-- Send one contribution of a COLL (R342, R351), under the number that it took at issue. -/
def collStepW (a : Agent) (ctx : Nat) (o : EOp) (op : Nat) (src : Dword) (count grp k : Nat) : Work Unit := do
  let s ← get
  if !s.groupOk ctx grp then failW .prot 0
  else
    let n := min 64 (count - 64 * k)
    let bs ← readW a (src.toNat + 256 * k) (4 * n)
    modify fun s =>
      let domain := ((s.fab.ctxs.find? ctx).map FabCtx.domain).getD 0
      let seq := o.sent
      let p : Packet := { Packet.blank with
        type := 12
        length := BitVec.ofNat 7 n
        target := BitVec.ofNat 12 grp
        mc := true
        source := BitVec.ofNat 12 s.pkg.peer
        seq := BitVec.ofNat 16 seq
        epoch := BitVec.ofNat 4 s.pkg.epoch
        domain := BitVec.ofNat 16 domain
        lowack := BitVec.ofNat 16 seq
        line := BitVec.ofNat 64 (256 * k)
        mask := BitVec.ofNat 64 (count + op * 2 ^ 32)
        payload := (List.range n).map fun i => bytesWord ((bs.drop (4 * i)).take 4) }
      (s.emit p).2

/-! ### The encoder (R363) -/

/-- Read a plane of a picture: rows of n bytes at a pitch. -/
def planeW (a : Agent) (addr pitch rows n : Nat) : Work (List Byte) := do
  let ls ← (List.range rows).mapM fun r => readW a (addr + pitch * r) n
  pure ls.flatten

/-- ENC (R363): the frame of the session `e`; the bits are the encoder's own (log entry 14). -/
def encW (a : Agent) (num desc : Nat) (e : List Byte) : Work Unit := do
  let bs ← readW a desc 64
  let f (o n : Nat) : Nat := bytesNat ((bs.drop o).take n)
  let g (o n : Nat) : Nat := bytesNat ((e.drop o).take n)
  if f 0 8 % 256 ≠ 0 ∨ f 16 4 % 256 ≠ 0 ∨ 1 < f 20 4 ∨ f 24 8 % 256 ≠ 0 ∨ f 44 20 ≠ 0 then failW .illegal desc
  else
    let row := g 8 2 * (if g 6 1 % 2 = 1 then 2 else 1)
    let luma ← planeW a (f 0 8) (f 16 4) (g 10 2) row
    let chroma ← planeW a (f 8 8) (f 16 4) (g 10 2 / 2) row
    let (first, others) := Config.bitstream (e ++ bs ++ natBytes 8 num) (luma ++ chroma) (f 32 4)
    let out := first :: others
    if f 32 4 < out.length then writeW a (desc + 36) (natBytes 4 0 ++ natBytes 4 2)
    else
      let interval := g 20 4
      let key := f 20 4 == 1 || num == 1 || (interval != 0 && (num - 1) % interval == 0)
      writeW a (f 24 8) out
      writeW a (desc + 36) (natBytes 4 out.length ++ natBytes 4 key.toNat)

end Sys2Proof.Machine
end

