-- ==== Sys2Proof/Machine/Queue.lean ====
section
/-! DEFINITION. Hardware queues (R259 to R263, R272, R368): reading the ring, stopping, starting and completing packets, contracts, and the
packets other than launches. -/
namespace Sys2Proof.Machine

/-! ### Accesses of a queue and its status word (R259, R368) -/

def Queue.agent (Q : Queue) : Agent := ⟨Q.space, 0, Q.declined, false⟩

def State.modQueue (s : State) (q : Nat) (f : Queue → Queue) : State := { s with queues := s.queues.modify q f }

/-- Write the queue's status word; if it cannot be written, the fault record is the only report (R368). -/
def State.pokeStatus (s : State) (q : Nat) : State :=
  match s.queues.find? q with
  | none => s
  | some Q =>
    match runWork s ⟨Q.space, 0, false, false⟩ (.queue q) (writeW ⟨Q.space, 0, false, false⟩ (Q.read.toNat + 4) (wordBytes Q.status)) with
    | .done _ s => s
    | .parked _ s => s
    | .failed _ _ _ => s

/-- Stop a queue with a code (R368). -/
def State.stopQueue (s : State) (q code : Nat) : State :=
  (s.modQueue q fun Q => { Q with stopped := true, status := BitVec.ofNat 32 code, bell := false, declined := false }).pokeStatus q

/-- Packets between the consumer and the producer index (R259). -/
def Queue.avail (Q : Queue) : Nat := (Q.prod + 2 ^ 32 - Q.cons) % 2 ^ 32

/-- The address of the packet with an index. -/
def Queue.slotAddr (Q : Queue) (i : Nat) : Nat := Q.ring.toNat + 64 * (i % 2 ^ Q.log2)

/-- Read the pull word of a queue whose doorbell has been rung (R259): the new producer index, or a stop. -/
def State.pull (s : State) (q : Nat) : State :=
  match s.queues.find? q with
  | none => s
  | some Q =>
    match runWork s Q.agent (.queue q) (natW Q.agent Q.pull.toNat 4) with
    | .parked tok s => s.modQueue q fun Q => { Q with miss := some tok }
    | .failed _ _ s => s.stopQueue q 10
    | .done p s =>
      if 2 ^ Q.log2 < (p + 2 ^ 32 - Q.cons) % 2 ^ 32 then s.stopQueue q 9
      else s.modQueue q fun Q => { Q with prod := p, bell := false, declined := false }

/-- R259, R359: a doorbell in a function's BAR; one of another function's queue is dropped, one of a stopped queue does nothing; in recovery
no function has one (R329). -/
def execDoorbell (s : State) : Res :=
  if 8 ≤ s.pkg.stage then .next s
  else match s.ev with
  | .bell fn q =>
    match s.queues.find? q with
    | none => .next s
    | some Q =>
      if Q.vf ≠ fn ∨ Q.stopped then .next s
      else
        let s := s.modQueue q fun Q => { Q with bell := true }
        .next (if Q.miss.isSome then s else s.pull q)
  | _ => notNow "DOORBELL"

/-! ### Packets (R260, R261) -/

/-- Field of n bytes at o of a packet, command, descriptor. -/
def fieldAt (bs : List Byte) (o n : Nat) : Nat := bytesNat ((bs.drop o).take n)

/-- The bytes from o on are zero. -/
def zeroFrom (bs : List Byte) (o : Nat) : Bool := (bs.drop o).all (· == 0)

/-- The fields of a CONTRACT packet (R261): identifier, class mask, sector count, period, budget, deadline, status word. -/
structure ContractFields where
  cid : Nat
  classes : Nat
  sectors : Nat
  period : Nat
  budget : Nat
  deadline : Nat
  status : Nat

def contractFields (bs : List Byte) : ContractFields :=
  ⟨fieldAt bs 8 4, fieldAt bs 12 1, fieldAt bs 13 1, fieldAt bs 16 8, fieldAt bs 24 8, fieldAt bs 32 8, fieldAt bs 40 8⟩

/-- A packet is well formed (R260, R261, R272). -/
def packetOk (bs : List Byte) : Bool :=
  let f := fieldAt bs
  f 1 1 ≤ 1 && f 2 6 == 0 && match f 0 1 with
    | 0 => zeroFrom bs 8
    | 1 => f 16 8 % 8 == 0 && zeroFrom bs 24
    | 2 => f 16 8 % 8 == 0 && f 24 8 % 256 == 0 && zeroFrom bs 32
    | 3 => zeroFrom bs 32
    | 4 => f 8 8 % 8 == 0 && zeroFrom bs 24
    | 5 => f 24 1 ≤ 1 && (if f 24 1 = 0 then f 8 8 % 8 == 0 else f 11 5 == 0) && zeroFrom bs 25
    | 6 => f 8 8 % 4 == 0 && f 24 1 < 8 && zeroFrom bs 27
    | 7 =>
      let c := contractFields bs
      f 14 2 == 0 && c.status % 8 == 0 && zeroFrom bs 48 && (c.period == 0 || c.classes < 64 && 1 ≤ c.sectors && c.sectors ≤ 64 &&
        0 < c.budget && c.budget ≤ c.deadline && c.deadline ≤ c.period)
    | 8 => zeroFrom bs 16
    | _ => false

/-- A packet's work is over; if the queue was to stop after it, it does (R265). -/
def State.dropItem (s : State) (q num : Nat) : State :=
  match s.queues.find? q with
  | none => s
  | some Q =>
    let s := s.modQueue q fun Q => { Q with items := Q.items.filter fun i => i.num != num }
    if Q.stopAfter = some num then (s.modQueue q fun Q => { Q with stopAfter := none }).stopQueue q 10 else s

/-- A packet of a queue is complete (R260). -/
def State.completePacket (s : State) (q num : Nat) : State :=
  match s.queues.find? q with
  | none => s
  | some Q => (s.modCtx Q.ectx fun x => x.finish num).dropItem q num

/-! ### Contracts (R272) -/

/-- A sum of fractions, numerator and denominator. -/
def addFrac (x y : Nat × Nat) : Nat × Nat := (x.1 * y.2 + y.1 * x.2, x.2 * y.2)

/-- U(s): the load of a sector (R272). -/
def sectorLoad (cs : List Contract) (sector : Nat) : Nat × Nat :=
  (cs.filter fun c => c.sectors.contains sector).foldl (fun u c => addFrac u (c.budget, c.period)) (0, 1)

/-- The worst-case stop latency of a class mask, in ticks (R264, R285). -/
def stopTicks (mask : Nat) : Nat :=
  let t := [ticksOfCycles 40, ticksOfCycles 200, ticksOfCycles 64, ticksOfCycles 80, 18 * 2000, ticksOfCycles 10]
  (t.zipIdx.filter fun x => fld mask x.2 1 == 1).foldl (fun m x => max m x.1) 0

/-- Sectors that can take a load (R272). -/
def sectorsFor (cs : List Contract) (budget period : Nat) : List Nat :=
  (List.range 64).filter fun s =>
    let u := addFrac (sectorLoad cs s) (budget, period)
    5 * u.1 ≤ 4 * u.2

/-- Decide a CONTRACT packet of an address space (R272): its status code and the contracts after it; the sectors are the scheduler's
choice (log entry 12). -/
def State.decideContract (s : State) (space : Nat) (c : ContractFields) : Nat × State :=
  let others := s.contracts.filter fun x => !(x.space == space && x.cid == c.cid)
  if c.period = 0 then (0, { s with contracts := others })
  else
    let fit := sectorsFor others c.budget c.period
    if fit.length < c.sectors then (5, s)
    else if 18 * (c.deadline - c.budget) < stopTicks c.classes + 18 * 6000 then (6, s)
    else
      let (ss, s) := State.chooseDies c.sectors s fit
      (0, { s with contracts := others ++
        [⟨space, c.cid, c.classes, ss, c.period, c.budget, c.deadline, BitVec.ofNat 64 c.status, s.now, false, [], 0, none, false⟩] })

/-- Perform a CONTRACT packet. -/
def contractW (a : Agent) (bs : List Byte) : Work Unit := do
  let c := contractFields bs
  let s ← get
  let (code, s) := s.decideContract a.space c
  set s
  writeW a c.status (natBytes 8 code)

/-! ### Starting packets (R260, R262) -/

/-- The unsigned 64-bit maximum of SIGNAL, with a release at sys scope. -/
def signalW (a : Agent) (addr value : Dword) : Work Unit := do
  let k ← reachW a addr.toNat accEngineWrite
  let s ← get
  if s.poisoned k 8 then failW .ecc addr.toNat
  else set (s.store k (natBytes 8 (max (s.nat k 8) value.toNat)))

/-- The items of a queue before an item. -/
def Queue.before (Q : Queue) (num : Nat) : List QItem := Q.items.takeWhile fun i => i.num != num

/-- An item may start: earlier items have started; with the fence, and for SIGNAL, they are complete (R260, R262). -/
def Queue.mayStart (Q : Queue) (i : QItem) : Bool :=
  let e := Q.before i.num
  !i.started && e.all QItem.started && match i.act with
    | .signal _ _ => e.isEmpty
    | _ => !i.fence || e.isEmpty

/-- Start an item; a SIGNAL or CONTRACT acts and completes. -/
def State.startItem (s : State) (q : Nat) (Q : Queue) (i : QItem) : State :=
  let started (s : State) : State := s.modQueue q fun Q =>
    { Q with items := Q.items.map fun x => if x.num = i.num then { x with started := true } else x }
  let perform (w : Work Unit) : State :=
    match runWork s Q.agent (.queue q) w with
    | .done _ s => (s.modQueue q fun Q => { Q with declined := false }).completePacket q i.num
    | .parked tok s => s.modQueue q fun Q => { Q with miss := some tok }
    | .failed _ _ s => (s.completePacket q i.num).stopQueue q 10
  match i.act with
  | .launch id => started { s with launches := s.launches.modify id fun L => { L with started := true } }
  | .copy => started (s.modEop Q.ectx i.num fun o => { o with running := true, since := s.now })
  | .wait _ _ _ => started s
  | .signal addr value => perform (signalW Q.agent addr value)
  | .contract bs => perform (contractW Q.agent bs)

/-- R260: an item whose turn has come starts. -/
def execPacketStart (s : State) : Res :=
  match s.ev with
  | .qitem q num =>
    match s.queues.find? q with
    | none => notNow "PACKET_START"
    | some Q => match Q.items.find? fun i => i.num == num with
      | none => notNow "PACKET_START"
      | some i => if !Q.mayStart i || Q.miss.isSome then notNow "PACKET_START" else .next (s.startItem q Q i)
  | _ => notNow "PACKET_START"

/-! ### Taking packets (R259, R260) -/

/-- Number the packet being taken; it is complete at once (R260). -/
def passPacket (q : Nat) (Q : Queue) : Work Unit :=
  modify fun s => match s.ectxs.find? Q.ectx with
    | none => s
    | some x => (s.modCtx Q.ectx fun x => { x with issued := x.issued + 1 }).completePacket q (x.issued + 1)

/-- Number the packet being taken and queue what it still does. -/
def queuePacket (q : Nat) (Q : Queue) (bs : List Byte) (act : QAct) : Work Unit :=
  modify fun s => match s.ectxs.find? Q.ectx with
    | none => s
    | some x =>
      let item : QItem := ⟨x.issued + 1, fieldAt bs 1 1 == 1, false, act⟩
      (s.modCtx Q.ectx fun x => { x with issued := x.issued + 1 }).modQueue q fun Q => { Q with items := Q.items ++ [item] }

/-- The packet at the consumer index: of an arm that its COND took, with whether it is discarded (R263), else read from the ring. -/
def packetW (Q : Queue) : Work (Bool × List Byte) := match Q.arm with
  | x :: _ => pure x
  | [] => do pure (false, ← readW Q.agent (Q.slotAddr Q.cons) 64)

/-- Take the packet at the consumer index (R259, R260): check it, do what its type does at its taking, advance and write the read word. The
read word passes a packet of an arm when its turn comes (log entry 61). -/
def takeW (q : Nat) (Q : Queue) (go : List Byte → Work Unit) : Work Unit := do
  let (discard, bs) ← packetW Q
  if !packetOk bs then failW .illegal 0
  else
    let next := if Q.loose = 0 then (Q.cons + 1) % 2 ^ 32 else Q.cons
    modify fun s => s.modQueue q fun Q => { Q with cons := next, arm := Q.arm.tail, loose := Q.loose - 1 }
    if discard then passPacket q Q else go bs
    writeW Q.agent Q.read.toNat (natBytes 4 next)

/-- The type of the packet at the consumer index, where it can be read. -/
def State.nextType (s : State) (Q : Queue) : Option Nat :=
  match (packetW Q).run s with
  | .ok bs _ => some (fieldAt bs.2 0 1)
  | .error _ _ => none

/-- A packet of one type is taken (R259): a reserved type is met as a NOP is, and stops the queue. -/
def takePacket (name : String) (type : Nat) (ready : Queue → Bool) (go : Nat → Queue → List Byte → Work Unit) (s : State) : Res :=
  match s.ev with
  | .queue q =>
    match s.queues.find? q with
    | none => notNow name
    | some Q =>
      let t := (s.nextType Q).getD 0
      if Q.stopped || Q.miss.isSome || Q.stopAfter.isSome || Q.avail == 0 && Q.loose == 0 || !(t == type || 8 < t && type == 0) || !ready Q then
        notNow name
      else match runWork s Q.agent (.queue q) (takeW q Q (go q Q)) with
        | .done _ s =>
          let s := s.modQueue q fun Q => { Q with declined := false }
          .next (match s.queues.find? q with
            | none => s
            | some Q => match Q.items.getLast? with
              | some i => if Q.mayStart i && !i.fence then s.startItem q Q i else s
              | none => s)
        | .parked tok s => .next (s.modQueue q fun Q => { Q with miss := some tok })
        | .failed .illegal _ s => .next (s.stopQueue q 9)
        | .failed _ _ s => .next (s.stopQueue q 10)
  | _ => notNow name

def anyTime (_ : Queue) : Bool := true

/-- R261. -/
def execNop (s : State) : Res := takePacket "NOP" 0 anyTime (fun q Q _ => passPacket q Q) s

/-- R262: numbered on the queue's context as an operation of its own. -/
def execCopy (s : State) : Res :=
  takePacket "COPY" 3 anyTime (fun q Q bs => do
    queuePacket q Q bs .copy
    modify fun s => match s.ectxs.find? Q.ectx with
      | none => s
      | some x =>
        let o : EOp :=
          { num := x.issued
            cmd := .copy (BitVec.ofNat 64 (fieldAt bs 8 8)) (BitVec.ofNat 64 (fieldAt bs 16 8)) (fieldAt bs 24 8)
            space := Q.space, team := 0, grp := 0, core := 0, ord := s.nextOrd, upto := 0, running := false, prog := 0, sent := 0
            back := 0, got := [], since := 0, wait := [], declined := false, pins := [], failure := none, pack := none, gather := none
            packFrom := none, kept := none, barred := false }
        { s.modCtx Q.ectx fun x => { x with pend := x.pend ++ [o] } with nextOrd := s.nextOrd + 1 }) s

/-- R262. -/
def execSignal (s : State) : Res :=
  takePacket "SIGNAL" 4 anyTime (fun q Q bs =>
    queuePacket q Q bs (.signal (BitVec.ofNat 64 (fieldAt bs 8 8)) (BitVec.ofNat 64 (fieldAt bs 16 8)))) s

/-- An engine context that WAIT may name: of the queue's address space (R262). -/
def State.queueMayWait (s : State) (space c : Nat) : Bool := match s.ectxs.find? c with
  | some x => x.space == space
  | none => false

/-- R262: a context outside the address space stops the queue. -/
def execWait (s : State) : Res :=
  takePacket "WAIT" 5 anyTime (fun q Q bs => do
    let s ← get
    let eng := fieldAt bs 24 1 == 1
    if eng && !s.queueMayWait Q.space (fieldAt bs 8 3) then failW .illegal 0
    else queuePacket q Q bs (.wait eng (BitVec.ofNat 64 (fieldAt bs 8 8)) (BitVec.ofNat 64 (fieldAt bs 16 8)))) s

/-- R262: the timeline word, or the named context's counter, has reached the value. -/
def execWaitSatisfied (s : State) : Res :=
  match s.ev with
  | .qitem q num =>
    match s.queues.find? q with
    | none => notNow "WAIT_SATISFIED"
    | some Q => match Q.items.find? fun i => i.num == num with
      | none => notNow "WAIT_SATISFIED"
      | some i => match i.act with
        | .wait true c v =>
          if i.started && s.futureDone c.toNat v.toNat then .next (s.completePacket q num) else notNow "WAIT_SATISFIED"
        | .wait false addr v =>
          if !i.started || Q.miss.isSome then notNow "WAIT_SATISFIED"
          else match runWork s Q.agent (.queue q) (natW Q.agent addr.toNat 8) with
            | .done w s => if v.toNat ≤ w then .next (s.completePacket q num) else notNow "WAIT_SATISFIED"
            | .parked tok s => .next (s.modQueue q fun Q => { Q with miss := some tok })
            | .failed _ _ s => .next ((s.completePacket q num).stopQueue q 10)
        | _ => notNow "WAIT_SATISFIED"
  | _ => notNow "WAIT_SATISFIED"

/-- A packet of an arm, read and decoded with its COND; a bad one, or a COND, stops the queue (R263). -/
def armW (Q : Queue) (i : Nat) : Work (List Byte) := do
  let x ← readW Q.agent (Q.slotAddr ((Q.cons + 1 + i) % 2 ^ 32)) 64
  if !packetOk x || fieldAt x 0 1 == 6 then failW .illegal 0 else pure x

/-- R263: taken with both its arms, once they lie before the producer index and every earlier packet is complete. -/
def condW (q : Nat) (Q : Queue) (bs : List Byte) : Work Unit := do
  let a := fieldAt bs 25 1
  let b := fieldAt bs 26 1
  if 2 ^ Q.log2 < a + b + 1 then failW .illegal 0
  else
    let arms ← (List.range (a + b)).mapM (armW Q)
    let w ← natW Q.agent (fieldAt bs 8 8) 4
    let c := scmpCond (fieldAt bs 24 1) (BitVec.ofNat 32 w &&& BitVec.ofNat 32 (fieldAt bs 16 4)) (BitVec.ofNat 32 (fieldAt bs 20 4))
    passPacket q Q
    modify fun s => s.modQueue q fun Q => { Q with arm := arms.zipIdx.map fun x => ((x.2 < a) != c, x.1) }

/-- The arms of a COND at the consumer index have been pulled, or never can be. -/
def State.armsHere (s : State) (Q : Queue) : Bool :=
  match (readW Q.agent (Q.slotAddr Q.cons) 64).run s with
  | .ok bs _ =>
    let n := fieldAt bs 25 1 + fieldAt bs 26 1 + 1
    !packetOk bs || 2 ^ Q.log2 < n || n ≤ Q.avail && Q.items.isEmpty
  | .error _ _ => true

/-- R263. -/
def execCond (s : State) : Res := takePacket "COND" 6 s.armsHere condW s

/-- R272: taken; it acts when it starts. -/
def execContract (s : State) : Res := takePacket "CONTRACT" 7 anyTime (fun q Q bs => queuePacket q Q bs (.contract bs)) s

/-- R262: the trace slot takes value and time; a matching trace trigger fires (R290). -/
def execMark (s : State) : Res :=
  takePacket "MARK" 8 anyTime (fun q Q bs => do
    passPacket q Q
    modify fun s =>
      let v : Dword := BitVec.ofNat 64 (fieldAt bs 8 8)
      let s := s.modQueue q fun Q => { Q with trace := v, traceTime := s.ns }
      match s.ctxs.find? Q.space with
      | some x => if x.trace = v then s.trigger Q.space else s
      | none => s) s

end Sys2Proof.Machine
end

