-- ==== Sys2Proof/Machine/Launch.lean ====
section
/-! DEFINITION. Launches (R221, R264 to R266, R271): the descriptor, its checks, acceptance and refusal. -/
namespace Sys2Proof.Machine

/-! ### What fits (R13, R36, R37, R221) -/

/-- A partition word is valid (R221). -/
def partitionOk (p : Nat) : Bool :=
  fld p 0 6 + fld p 6 6 + fld p 12 6 == 64 && fld p 12 6 ≤ 48 && 4 ≤ fld p 0 6 && fld p 18 14 == 0

/-- A cluster shape is permitted (R13). -/
def shapeOk (w h : Nat) : Bool :=
  (w == 1 || w == 2) && 1 ≤ h && h ≤ 6 || w == 3 && h == 4 || w == 4 && h == 3

/-- A resource of size `have_` taken n at a time: how many teams it holds, unlimited where they take none. -/
def teamsIn (have_ n : Nat) : Nat := if n = 0 then 64 else have_ / n

/-- Physical registers that admission can promise (R23, R36). -/
def regsOf (partition : Nat) : Nat := 512 * fld partition 0 6 - 64

/-- How many teams of a launch an empty core holds (R36). -/
def Launch.perCore (L : Launch) : Nat :=
  let p := L.partition.toNat
  min (min (64 / L.groups) (teamsIn (regsOf p) (L.regs * L.groups)))
    (min (teamsIn (1024 * fld p 6 6) L.pad) (teamsIn (4 * fld p 12 6) L.tiles))

/-- How many clusters of a launch an empty sector holds. -/
def Launch.perSector (L : Launch) : Nat := L.perCore * (4 / L.width) * (6 / L.height)

/-- The member of a roped launch that cluster c goes to (R271). -/
def Launch.memberOf (L : Launch) (c : Nat) : Nat := c * L.dies.length / L.grid

/-- The sectors that a launch may use: its contract's, else all (R273). -/
def State.sectorsOf (s : State) (L : Launch) : List Nat :=
  match s.contracts.find? fun c => L.realtime && c.space == L.space && c.cid == L.contract with
  | some c => c.sectors
  | none => List.range 64

/-- A team, or the whole grid of a co-operative or roped launch, fits on empty cores (R37, R265). -/
def State.fits (s : State) (L : Launch) : Bool :=
  1 ≤ L.perCore && (!L.coop ||
    let ss := s.sectorsOf L
    if L.rope.isSome then
      (L.dies.zipIdx).all fun d =>
        -- clusters of member i: those c with i ≤ c W / C < i + 1
        let lo := (d.2 * L.grid + L.dies.length - 1) / L.dies.length
        let hi := ((d.2 + 1) * L.grid + L.dies.length - 1) / L.dies.length
        hi - lo ≤ L.perSector * (ss.filter fun x => x / 8 == d.1).length
    else L.grid ≤ L.perSector * ss.length)

/-! ### The descriptor (R264, R265) -/

/-- The launch that a descriptor asks for. -/
def parseLaunch (space q num desc status : Nat) (bs : List Byte) : Launch :=
  let f := fieldAt bs
  { desc := desc
    entry := BitVec.ofNat 64 (f 0 8)
    partition := BitVec.ofNat 32 (f 8 4)
    regs := fld (f 12 4) 0 7
    groups := fld (f 12 4) 8 6
    tiles := fld (f 12 4) 16 8
    width := fld (f 12 4) 24 4
    height := fld (f 12 4) 28 4
    pad := f 16 4
    coop := fld (f 20 4) 0 1 == 1
    prio := fld (f 20 4) 1 2
    realtime := fld (f 20 4) 3 1 == 1
    classes := fld (f 20 4) 4 6
    grid := f 24 8
    area := BitVec.ofNat 64 (f 32 8)
    fabric := f 40 3
    contract := f 44 4
    space := space
    queue := q
    num := num
    status := BitVec.ofNat 64 status
    rope := none, view := 0, dies := [], placed := 0, reserved := false, started := false, retired := []
    failed := false, complete := false, spent := false, clusters := [] }

/-- A fabric context that a launch of a space may use (R265, R336). -/
def State.fabricFor (s : State) (space id : Nat) : Bool :=
  id == 0 || match s.fab.ctxs.find? id, s.ectxs.find? id with
    | some _, some x => x.space == space
    | _, _ => false

/-- The descriptor is well formed (code 4 of R265). -/
def State.launchOk (s : State) (L : Launch) (bs : List Byte) : Bool :=
  let f := fieldAt bs
  L.desc % 256 == 0 && L.desc < 2 ^ 32 && L.entry &&& 3 == 0 && L.area.toNat % 256 == 0 &&
    fld (f 12 4) 7 1 == 0 && fld (f 12 4) 14 2 == 0 && fld (f 20 4) 10 22 == 0 && f 43 1 == 0 && (f 48 40 == 0) && (f 88 40 == 0) &&
    1 ≤ L.grid && 1 ≤ L.groups && L.groups ≤ 32 && L.regs ≤ 64 && s.fabricFor L.space L.fabric &&
    !(L.contract != 0 && !L.realtime)

/-- A CONTRACT packet that removes a contract has been taken and has not acted yet (R275). -/
def State.removing (s : State) (space cid : Nat) : Bool :=
  s.queues.any fun q => q.2.space == space && q.2.items.any fun i => match i.act with
    | .contract bs => (contractFields bs).cid == cid && (contractFields bs).period == 0
    | _ => false

/-- The contract that a real-time launch names is bound, covers its classes (code 7 of R265) and is not being removed (R275). -/
def State.contractFor (s : State) (L : Launch) : Bool :=
  !L.realtime || !s.removing L.space L.contract &&
    s.contracts.any fun c => c.space == L.space && c.cid == L.contract && L.classes &&& c.classes == L.classes

/-- The code of a launch's acceptance or refusal, after code 4 has been checked (R265). -/
def State.launchCode (s : State) (L : Launch) : Nat :=
  if !shapeOk L.width L.height then 1
  else if !partitionOk L.partition.toNat then 2
  else if !s.contractFor L then 7
  else if !s.fits L then 3 else 0

/-- Run work, with the answer none where it fails. -/
def tryW {α : Type} (w : Work α) : Work (Option α) := tryCatch (do let x ← w; pure (some x)) fun
  | .fail _ _ => pure none
  | .miss va code prot => throw (.miss va code prot)

/-- Write a launch status word: its code and the launch's engine context (R265). -/
def launchStatusW (a : Agent) (status code id : Nat) : Work Unit := writeW a status (natBytes 8 (code + id * 2 ^ 40))

/-- Take a LAUNCH or RLAUNCH (R265): the checks in their order, the status word, and an item for an accepted launch. A refused launch has
an engine context too, which its status word names (DEDUCED, log entry 61). A status word that
cannot be written lets the queue take no further packet (R265). -/
def launchW (roped : Bool) (q : Nat) (Q : Queue) (bs : List Byte) : Work Unit := do
  let a := Q.agent
  let num := fun (s : State) => ((s.ectxs.find? Q.ectx).map ECtx.issued).getD 0 + 1
  let d ← tryW (readW a (fieldAt bs 8 8) 256)
  let status := fieldAt bs 16 8
  let rec' := fieldAt bs 24 8
  let r ← if roped then tryW (do let r ← openRec a rec'; let x ← seqW a rec'; pure (some (r, x))) else pure (some none)
  let s ← get
  let refuse (code : Nat) : Work Unit := do
    let (id, t) := (← get).newCtx .launch Q.space
    set t
    let ok ← tryW (launchStatusW a status code id)
    if ok.isNone then modify fun s => s.modQueue q fun Q => { Q with stopAfter := some (num s) } else pure ()
    passPacket q Q
  match d, r with
  | some ds, some x =>
    let L := parseLaunch Q.space q (num s) (fieldAt bs 8 8) status ds
    let L : Launch := match x with
      | some (r, x) => { L with rope := some rec', view := r.view, dies := x.members, coop := true }
      | none => L
    if !s.launchOk L ds then refuse 4
    else match s.launchCode L with
      | 0 =>
        let (id, s) := s.newCtx .launch Q.space
        set { s with launches := s.launches.insert id L }
        let ok ← tryW (launchStatusW a status 0 id)
        if ok.isNone then modify fun s => s.modQueue q fun Q => { Q with stopAfter := some (num s) } else pure ()
        queuePacket q Q bs (.launch id)
      | code => refuse code
  | _, _ => refuse 4

/-- R264, R265. -/
def execLaunch (s : State) : Res := takePacket "LAUNCH" 1 anyTime (launchW false) s
/-- R265, R271: co-operative on the members of the record's view. -/
def execRlaunch (s : State) : Res := takePacket "RLAUNCH" 2 anyTime (launchW true) s

end Sys2Proof.Machine
end

