-- ==== Sys2Proof/Machine/Links.lean ====
section
/-! DEFINITION. The command links between the package scheduler and the sector controllers (R312). -/
namespace Sys2Proof.Machine

/-- A link after link reset: each sender holds 16 permits. -/
def CmdLink.fresh : CmdLink := ⟨16, [], [], 16, [], []⟩

/-- One direction: the sender's permits, the receiver's buffer, the sender's queue. -/
structure LinkSide where
  permits : Nat
  buffer : List Nat
  queue : List Nat

def CmdLink.side (l : CmdLink) (up : Bool) : LinkSide :=
  if up then ⟨l.permitsUp, l.bufUp, l.queueUp⟩ else ⟨l.permitsDown, l.bufDown, l.queueDown⟩

def CmdLink.setSide (l : CmdLink) (up : Bool) (d : LinkSide) : CmdLink :=
  if up then { l with permitsUp := d.permits, bufUp := d.buffer, queueUp := d.queue }
  else { l with permitsDown := d.permits, bufDown := d.buffer, queueDown := d.queue }

/-- Messages of one direction that have not been taken. -/
def LinkSide.waiting (d : LinkSide) : Nat := d.buffer.length + d.queue.length

/-- The scheduler may send a message that asks for a reply: at most 512 are on their way (R312, log entry 59). -/
def CmdLink.mayAsk (l : CmdLink) : Bool := (l.side false).waiting < 512

/-- The outbound queue of 1024 messages has room (R312). -/
def CmdLink.mayTell (l : CmdLink) : Bool := (l.side true).queue.length < 1024

/-- Send a message: with a permit it goes to the receiver's buffer, else it waits in the outbound queue. -/
def LinkSide.send (d : LinkSide) (m : Nat) : LinkSide :=
  if d.permits = 0 ∨ d.queue ≠ [] then { d with queue := d.queue ++ [m] }
  else { d with permits := d.permits - 1, buffer := d.buffer ++ [m] }

/-- Take the oldest message: its permit returns, and the sender spends it on the next waiting message. -/
def LinkSide.take (d : LinkSide) : LinkSide :=
  match d.queue with
  | [] => { d with permits := d.permits + 1, buffer := d.buffer.drop 1 }
  | m :: ms => { d with buffer := d.buffer.drop 1 ++ [m], queue := ms }

def State.link (s : State) (sector : Nat) : CmdLink := s.pkg.links.getD sector CmdLink.fresh

def State.setLink (s : State) (sector : Nat) (l : CmdLink) : State :=
  { s with pkg := { s.pkg with links := s.pkg.links.insert sector l } }

/-- Send a message on the link of a sector, up to the package scheduler or down from it. -/
def State.sendMessage (s : State) (sector : Nat) (up : Bool) (m : Nat) : State :=
  let l := s.link sector
  s.setLink sector (l.setSide up ((l.side up).send m))

/-- A message with this number has not been taken by its sector controller yet. -/
def State.messageDown (s : State) (sector m : Nat) : Bool :=
  let d := (s.link sector).side false
  d.buffer.contains m || d.queue.contains m

/-- R312: a message is taken out of its input buffer. -/
def execLinkMessage (s : State) : Res :=
  match s.ev with
  | .link sector up =>
    let l := s.link sector
    match (l.side up).buffer with
    | [] => notNow "LINK_MESSAGE"
    | _ :: _ => .next (s.setLink sector (l.setSide up (l.side up).take))
  | _ => notNow "LINK_MESSAGE"

end Sys2Proof.Machine
end

