-- ==== Sys2Proof/Machine/Team.lean ====
section
/-! DEFINITION. Teams on cores: admission (R36, R224), halting and handlers (R278, R281), saving and readmission (R22, R285 to R289, R321),
retirement (R34, R267). -/
namespace Sys2Proof.Machine

/-! ### Admission (R36, R222, R224) -/

/-- The team holds room on its core. -/
def Team.occupies (T : Team) : Bool := match T.st with
  | .out _ | .retired => false
  | _ => true

/-- The teams that hold room on a core. -/
def State.onCore (s : State) (core : Nat) : List (Nat × Team) := s.teams.filter fun t => t.2.core == core && t.2.occupies

/-- A core is drained (R222): no team and so no pad, no allocated slot, no pending operation issued there. -/
def State.drained (s : State) (core : Nat) : Bool :=
  (s.onCore core).isEmpty && (s.core core).tiles.all (fun t => !t.2.alloc) &&
    s.eops.all fun o => !(o.2.core == core && !o.2.cmd.ofQueue && s.opHere o.2)

/-- What a team needs of a core. -/
structure Needs where
  partition : Word
  groups : Nat
  floors : Nat
  pad : Nat
  tiles : Nat
  /-- registers mapped beyond the floors, for a team that returns -/
  extra : Nat

def sumOf {α : Type} (l : List α) (f : α → Nat) : Nat := l.foldl (fun n x => n + f x) 0

/-- The lowest run of n units free of the given runs (base, size) below a limit. -/
def lowestRun (runs : List (Nat × Nat)) (limit n : Nat) : Option Nat :=
  let starts := 0 :: runs.map fun r => r.1 + r.2
  (starts.filter fun b => b + n ≤ limit && runs.all fun r => b + n ≤ r.1 || r.1 + r.2 ≤ b).foldl (fun m b => match m with
    | none => some b
    | some x => some (min x b)) none

/-- The pad runs of a core, in 64-byte units. -/
def State.padRuns (s : State) (core : Nat) : List (Nat × Nat) :=
  ((s.onCore core).map fun t => (t.2.padBase, t.2.padSize / 64)).filter fun r => r.2 != 0

/-- Where a pad of n units goes (R224). -/
def State.padRun (s : State) (core : Nat) (partition : Word) (n : Nat) : Option Nat :=
  if n = 0 then some 0 else lowestRun (s.padRuns core) (1024 * fld partition.toNat 6 6) n

/-- A core can admit a team (R36): everything fits at once beside the teams it has. -/
def State.admits (s : State) (core : Nat) (n : Needs) : Bool :=
  let ts := s.onCore core
  let gs := s.residents core
  let p := n.partition.toNat
  ((s.core core).partition == n.partition || s.drained core) &&
    sumOf ts (fun t => t.2.groups.length) + n.groups ≤ 64 &&
    sumOf gs Group.floor + n.floors ≤ regsOf p &&
    sumOf gs (fun g => max g.uses g.floor) + n.floors + n.extra ≤ max (regsOf p) (sumOf gs (fun g => max g.uses g.floor) + n.floors) &&
    (s.padRun core n.partition n.pad).isSome &&
    sumOf ts (fun t => t.2.quota) + n.tiles ≤ 4 * fld p 12 6

/-- The needs of one team of a launch. -/
def Launch.needs (L : Launch) : Needs := ⟨L.partition, L.groups, L.groups * L.regs, L.pad, L.tiles, 0⟩

/-- Free group slots of a core, lowest first. -/
def State.freeGroupSlots (s : State) (core : Nat) : List Nat :=
  let used := (s.onCore core).flatMap fun t => t.2.groups.map fun g => g.2.slot
  (List.range 64).filter fun i => !used.contains i

/-- Give a core its partition word; a change happens only when it is drained (R222). -/
def State.setPartition (s : State) (core : Nat) (p : Word) : State := s.modCore core fun c => { c with partition := p }

/-! ### Halting and handlers (R278, R281) -/

/-- A READY split that neither waits on a miss nor has stalled since the last event. -/
def State.canIssue (s : State) (t g : Nat) (e : Nat × Split) : Bool :=
  e.2.st == .ready && !s.stalls.contains (t, g, e.1) && match e.2.wait with
    | .walk tok => (s.parked.find? tok).isNone
    | _ => true

/-- The oldest lane instruction of a split can go on in its pipe: it is not stopped, and has not stalled there since the last event. -/
def State.canWalk (s : State) (t g : Nat) (e : Nat × Split) : Bool :=
  e.2.prog.isSome && e.2.st != .frozen && !s.stalls.contains (t, g, 64 + e.1)

/-- R278 items 2 to 4: every sibling has issued its skid, or can issue nothing more; lane instructions in their pipes stop at the lane they
have reached, the splits freeze, a knot's waiting instructions are withdrawn (R174), and the team waits for the handler. -/
def execTeamHalt (s : State) : Res :=
  match s.ev with
  | .team t =>
    match s.teams.find? t with
    | none => notNow "TEAM_HALT"
    | some T =>
      let more (g : Nat × Group) : Bool := 0 < g.2.skidLeft && g.2.splits.any (s.canIssue t g.1)
      if !T.st.isHalting || T.groups.any more then notNow "TEAM_HALT"
      else
        let stop (G : Group) : Group := { G.freeze with skidLeft := 0 }
        let s := s.modTeam t fun T => { T with st := .halted, groups := List.map (fun g => (g.1, stop g.2)) T.groups }
        let s := s.unknot t T.core
        .next (if T.debug then s else s.modCore T.core fun c => { c with haltQ := c.haltQ ++ [t] })
  | _ => notNow "TEAM_HALT"

/-- R281: the handler of the team that halted first starts in the group that took the fault; a team restored with its handler running
takes the core's place for it. -/
def execHandlerStart (s : State) : Res :=
  match s.ev with
  | .team t =>
    match s.teams.find? t with
    | none => notNow "HANDLER_START"
    | some T =>
      let c := s.core T.core
      if T.st != .halted || T.debug || T.cause.isSome || c.handler.isSome || c.haltQ.head? != some t then notNow "HANDLER_START"
      else
        let s := s.modCore T.core fun c => { c with handler := some t, haltQ := c.haltQ.drop 1 }
        if T.handling.isSome then .next s
        else match T.faulting, s.ctxs.find? T.space with
          | some g, some x => .next (s.enterHandler t g x.handler)
          | _, _ => notNow "HANDLER_START"
  | _ => notNow "HANDLER_START"

/-! ### Handles of restored tiles (R167) -/

/-- Change the tile slots that a command names; weight-buffer entries stay. -/
def ECmd.mapSlots (f : Nat → Nat) : ECmd → ECmd
  | .tzero d => .tzero (f d)
  | .mma d a b wb m fmt rot sa sb n => .mma (f d) (f a) (if wb.isSome then b else f b) wb (m.map f) fmt rot sa sb n
  | .tcomp d a b fmt => .tcomp (f d) (f a) (f b) fmt
  | .tsoft d a b c first fmt => .tsoft (f d) (f a) (f b) c first fmt
  | .tscale d a b => .tscale (f d) (a.map f) (f b)
  | .tnorm d a b => .tnorm (f d) (f a) (f b)
  | .trowred d a k => .trowred (f d) (f a) k
  | .tew d a b k form cvt fmt => .tew (f d) (f a) (f b) k form cvt fmt
  | .vtot d row lo hi act => .vtot (f d) row lo hi act
  | .sigq d a b fmt sa sb => .sigq (f d) (f a) (f b) fmt sa sb
  | .tld t rows addr stride => .tld (f t) rows addr stride
  | .tst t rows addr stride => .tst (f t) rows addr stride
  | .gath k v m rec start count list vblk fmt => .gath (f k) (f v) (f m) rec start count list vblk fmt
  | .kvapp rec count src => .kvapp rec count (match src with
      | .tiles k v => .tiles (f k) (f v)
      | x => x)
  | .rpub rec member acc rst => .rpub rec member (f acc) (f rst)
  | x => x

def LKind.mapSlots (core : Nat) (f : Nat → Nat) : LKind → LKind
  | .ttov _ slot row ord act => .ttov core (f slot) row ord act
  | .tstat _ slot d ord => .tstat core (f slot) d ord
  | k => k

def Wait.mapSlots (f : Nat → Nat) : Wait → Wait
  | .tawt slot phase => .tawt (f slot) phase
  | w => w

/-- Rewrite a group's handles and slots. -/
def Group.mapSlots (core : Nat) (f : Nat → Nat) (h : BitVec 16 → BitVec 16) (G : Group) : Group :=
  { G with
    t := List.map (fun (x : Nat × BitVec 16) => (x.1, h x.2)) G.t
    latches := List.map (fun (x : Nat × BitVec 16) => (x.1, h x.2)) G.latches
    ops := G.ops.map fun o => { o with kind := o.kind.mapSlots core f }
    splits := List.map (fun (e : Nat × Split) => (e.1, { e.2 with wait := e.2.wait.mapSlots f })) G.splits
    saved := G.saved.map fun x =>
      { x with splits := List.map (fun (e : Nat × Split) => (e.1, { e.2 with wait := e.2.wait.mapSlots f })) x.splits } }

/-! ### Saving (R285, R286, R321) -/

/-- Slots of its core that a team still needs: those it holds, and those already freed that an operation, a reader or an arrival of it
names (R161, R163, R182). -/
def State.heldSlots (s : State) (t : Nat) (T : Team) : List Nat :=
  let ops := (s.eops.filter fun o => o.2.team == t && !o.2.cmd.ofQueue).flatMap fun o => o.2.cmd.names.filter (· < 256)
  let readers := T.groups.flatMap fun g => g.2.ops.filterMap fun o => match o.kind with
    | .ttov _ slot _ _ _ | .tstat _ slot _ _ => some slot
    | _ => none
  let arrivals := ((s.core T.core).arrivals.filter fun a => a.team == t).map TileArrival.slot
  (ops ++ readers ++ arrivals).foldl setInsert T.slots

/-- The bytes of a team's record in the save pool (R286). -/
def State.recordSize (s : State) (t : Nat) (T : Team) : Nat :=
  let gs := T.groups.map Prod.snd
  let names := sumOf gs fun g => g.v.length + ((g.saved.map fun x => x.v.length).getD 0)
  let parked := sumOf gs fun g => sumOf g.ops fun o => o.accs.length
  let ops := (s.eops.filter fun o => o.2.team == t && !o.2.cmd.ofQueue).length
  256 + 4096 * gs.length + 128 * names + 512 + 32 * parked + 64 * ops + T.padSize + 16384 * (s.heldSlots t T).length

/-- The virtual function of an address space (R258). -/
def State.vfOf (s : State) (space : Nat) : Nat := ((s.ctxs.find? space).map Ctx.vf).getD 0

/-- Room for a record of n bytes in the save pool of a function: its place (R286). -/
def State.saveRoom (s : State) (vf n : Nat) : Option Nat :=
  match s.pkg.savePools.find? vf with
  | none => none
  | some (_, size) =>
    let used := (s.teams.filter fun t => s.vfOf t.2.space == vf && t.2.saveSize != 0).map fun t => (t.2.saveAt, t.2.saveSize)
    lowestRun used size n

/-- A load or atomic still on its way is recorded, and its translation made again on the return (R284). -/
def LOp.takenBack (o : LOp) : LOp :=
  if o.kind.isStore then o else { o with accs := o.accs.map fun a => if a.sent then a else { a with key := none } }

/-! #### The record's bytes (R27, R286; log entry 32) -/

/-- Pieces of a record: offset and bytes; what no piece covers is zero. -/
abbrev Pieces := List (Nat × List Byte)

def Pieces.shift (n : Nat) (l : Pieces) : Pieces := List.map (fun (p : Nat × List Byte) => (n + p.1, p.2)) l

/-- Runs of pieces, each of a fixed size, one after another. -/
def piecesOf {α : Type} (size : Nat) (l : List α) (f : α → Pieces) : Pieces :=
  (l.mapIdx fun i x => Pieces.shift (size * i) (f x)).flatten

/-- A split-table entry (R27). -/
def Split.entryBits (e : Split) : Nat :=
  e.mask.toNat * 2 ^ 224 + e.act.toNat * 2 ^ 192 + fld e.pc.toNat 2 55 * 2 ^ 137 + e.jpc.toNat * 2 ^ 82 + e.fmt.toNat * 2 ^ 66 +
    e.parent * 2 ^ 60 + e.st.code * 2 ^ 57 + e.tof.toNat * 2 ^ 56

/-- R35's states as the header holds them. -/
def TeamSt.code : TeamSt → Nat
  | .placed => 0 | .running => 1 | .halting _ | .halted => 2 | .out _ => 3 | .retired => 4

/-- What the header's free bytes hold of a tile slot: kind, generation, P. -/
def State.tileMark (s : State) (core n : Nat) : List Byte := match s.slot? core n with
  | some t => natBytes 1 t.kind ++ natBytes 1 t.gen ++ natBytes 2 t.p
  | none => natBytes 4 0

/-- The header, with kind, generation and P of the tiles, of which its bytes have room for 51. -/
def State.recordHeader (s : State) (T : Team) (slots : List Nat) : Pieces :=
  [(0, natBytes 4 T.st.code ++ wordBytes (s.tix T) ++ natBytes 8 T.cix ++ natBytes 4 T.launch ++
    wordBytes (((s.launches.find? T.launch).map Launch.partition).getD 0) ++ natBytes 4 T.groups.length ++ natBytes 4 T.padSize ++
    natBytes 8 slots.length ++ natBytes 8 s.ns ++ natBytes 4 (T.handling.getD 0xFF)),
   (52, (slots.take 51).flatMap (s.tileMark T.core))]

/-- A collector (R223): the names whose mappings fixed at issue the map has replaced, each with its word of the current lane. -/
def collectorBytes (lane : Nat) (m : SMap VReg) : List Byte :=
  ((m.flatMap fun (x : Nat × VReg) => natBytes 4 (x.1 + 1) ++ wordBytes (x.2.lanes.getD lane 0)) ++ List.replicate 64 0).take 64

/-- The progress of a stopped lane instruction. -/
def Progress.bytes (entry : Nat) (p : Progress) : List Byte :=
  natBytes 4 (entry + 256 * p.lane + 65536 * p.pass2.toNat + 131072 * p.sbad.toNat) ++ wordBytes p.act ++ wordBytes p.acc ++ wordBytes p.mm ++
    natBytes 8 p.sval.toNat ++ collectorBytes p.lane p.srcs ++ collectorBytes p.lane p.fresh ++ p.buf.flatMap wordBytes

/-- The stopped lane instructions of some splits, in the order of their issue, each with its split's entry. -/
def stoppedWalks (splits : SMap Split) : List (Nat × Progress) :=
  ((splits.flatMap fun e => e.2.walks.map fun p => (e.1, p)).foldl
    (fun (m : SMap (Nat × Progress)) x => SMap.insert m x.2.issue x) []).map Prod.snd

/-- One group's part, of 4096 bytes. -/
def Group.record (g : Group) : Pieces :=
  let names := g.program
  let regs (at_ size : Nat) {α : Type} (m : SMap α) (f : α → List Byte) : Pieces := m.map fun (x : Nat × α) => (at_ + size * x.1, f x.2)
  let f := g.fr
  let v := (g.saved.map Saved.v).getD g.v
  regs 0 32 names (fun e => natBytes 32 e.entryBits) ++ regs 2048 4 g.s wordBytes ++ regs 2304 4 ((g.saved.map Saved.p).getD g.p) wordBytes ++
    regs 2336 8 g.q (fun x => natBytes 8 x.toNat) ++ [(2464, (List.range 32).flatMap fun i => natBytes 2 (g.treg i).toNat)] ++
    [(2528, wordBytes g.brd ++ wordBytes g.scv ++ wordBytes g.jto ++ wordBytes f.flt ++ wordBytes f.pix ++ wordBytes f.skid ++
      natBytes 8 f.fpc.toNat ++ wordBytes f.fcause ++ natBytes 8 g.hpc.toNat ++ wordBytes g.hskid),
     (2592, (List.range 64).flatMap fun n => natBytes 2 (((v.map Prod.fst).idxOf? n).getD 0xFFFF))] ++
    Pieces.shift 2720 (piecesOf 320 ((stoppedWalks names).take 4) fun x => [(0, x.2.bytes x.1)]) ++
    (match g.pending with
      | r :: _ => [(4000, natBytes 8 r.pc.toNat ++ wordBytes r.fcause ++ wordBytes r.lanes ++ natBytes 8 r.addr.toNat ++ natBytes 4 r.pix)]
      | [] => []) ++
    match names.findSome? fun e => match e.2.wait with | .monitor a x limit _ => some (e.1, a, x, limit) | _ => none with
    | some (i, a, x, limit) => [(4048, natBytes 8 a ++ wordBytes x ++ natBytes 4 i ++ natBytes 8 (limit.getD 0))]
    | none => []

/-- Hearth registers with owners, team barriers, hand-over latches. -/
def Team.recordShared (T : Team) : Pieces :=
  let latches := T.groups.flatMap fun g => g.2.latches.map fun (l : Nat × BitVec 16) => natBytes 1 g.1 ++ natBytes 1 l.1 ++ natBytes 2 l.2.toNat
  (T.hearth.map fun (h : Nat × Hearth) => (8 * h.1, wordBytes h.2.val ++ natBytes 4 (h.2.owner.getD 0xFF))) ++
    (T.bars.map fun (b : Nat × Barrier) => (128 + 8 * b.1, natBytes 4 b.2.phase ++ natBytes 2 b.2.count ++ natBytes 2 b.2.target)) ++
    [(256, (latches.take 64).flatten)]

/-- A parked or unfinished transaction. -/
def LaneAcc.record (id : Nat) (a : LaneAcc) : Pieces :=
  [(0, natBytes 8 a.ea.toNat ++ natBytes 4 id ++ natBytes 1 a.lane ++ natBytes 1 a.part ++ natBytes 1 a.size ++ natBytes 1 a.token.isSome.toNat ++
    (a.data ++ wordBytes a.cmp ++ natBytes 4 a.ord).take 16)]

/-- An engine operation. -/
def EOp.record (ctx : Nat) (o : EOp) : Pieces :=
  [(0, natBytes 4 ctx ++ natBytes 4 o.running.toNat ++ natBytes 8 o.num ++ natBytes 8 o.prog ++ natBytes 8 o.ord ++ natBytes 8 o.since)]

/-- A team's record (R286). -/
def State.record (s : State) (t : Nat) (T : Team) : Pieces :=
  let gs := T.groups.map Prod.snd
  let maps := gs.flatMap fun g => ((g.saved.map Saved.v).getD g.v) ++ (if g.saved.isSome then g.v else [])
  let accs := gs.flatMap fun g => g.ops.flatMap fun o => o.accs.map fun a => (o.id, a)
  let ops := s.eops.filter fun o => o.2.team == t && !o.2.cmd.ofQueue
  let slots := s.heldSlots t T
  let a := 256 + 4096 * gs.length
  let b := a + 128 * maps.length
  let c := b + 512 + 32 * accs.length
  let d := c + 64 * ops.length
  s.recordHeader T slots ++ Pieces.shift 256 (piecesOf 4096 gs Group.record) ++
    Pieces.shift a (piecesOf 128 maps fun x => [(0, x.2.lanes.toList.flatMap wordBytes)]) ++ Pieces.shift b T.recordShared ++
    Pieces.shift (b + 512) (piecesOf 32 accs fun x => x.2.record x.1) ++ Pieces.shift c (piecesOf 64 ops fun x => x.2.record x.1) ++
    T.pad.map (fun (x : Nat × Byte) => (d + x.1, [x.2])) ++
    Pieces.shift (d + T.padSize) (piecesOf 16384 slots fun n =>
      (((s.slot? T.core n).map TileSlot.bytes).getD []).map fun (x : Nat × Byte) => (x.1, [x.2]))

/-- The record goes to the save pool. -/
def State.writeRecord (s : State) (t : Nat) (T : Team) (off : Nat) : State :=
  let base := (((s.pkg.savePools.find? (s.vfOf T.space)).map Prod.fst).getD 0) + off
  (s.record t T).foldl (fun (s : State) p => s.store (base + p.1) p.2) (s.zeroBytes base (s.recordSize t T))

/-! #### Saving a team -/

/-- The last WBLD of a core still to load an entry that an operation reads (R161). -/
def State.loading (s : State) (o : EOp) (e : Nat) : Option (Nat × EOp) :=
  (s.eops.filter fun x => x.2.core == o.core && s.opHere x.2 && x.2.ord < o.ord && x.2.cmd.writes.contains (entryName e)).foldl
    (fun (b : Option (Nat × EOp)) x => match b with
      | none => some x
      | some y => if y.2.ord < x.2.ord then some x else b) none

/-- A pending MMA.wb takes the pack of its entry with it; where a WBLD that it follows still has to load that, it reads what its own team's
loads on the return, or takes what another team's has loaded (R203). -/
def State.keepPacks (s : State) (t : Nat) : State :=
  let keep (o : EOp) : EOp := match o.cmd with
    | .mma _ _ e (some _) _ _ _ _ _ _ =>
      if o.team ≠ t ∨ o.pack.isSome ∨ o.packFrom.isSome then o
      else match s.loading o e with
        | none => { o with pack := s.entry? o.core e }
        | some x => if x.2.team = t then o else { o with packFrom := some (x.1, x.2.num) }
    | _ => o
  { s with ectxs := List.map (fun (c : Nat × ECtx) => (c.1, { c.2 with pend := c.2.pend.map keep })) s.ectxs }

/-- A team's running tile vector operation stops at a row, which one is free (R203, log entry 22). -/
def State.stopVectors (s : State) (t : Nat) : State :=
  (s.eops.filter fun x => x.2.team == t && x.2.running && x.2.failure.isNone && x.2.cmd.isRowwise).foldl (fun s x =>
    let (i, s) := s.draw (64 - x.2.prog)
    s.stopAtRow x.1 x.2 (x.2.prog + i)) s

/-- Save a team (R285, R286): its write buffers drain (R251), its knots are withdrawn, its tile operations stop (R203), its record is written,
its tiles leave their slots, and it is OUT. None where the pool has no room. -/
def State.saveTeam (s : State) (t : Nat) : Option State :=
  match s.teams.find? t with
  | none => none
  | some T =>
    let s := ((s.drainTeam t T).unknot t T.core).stopVectors t
    let s := if T.st.isHalting then s.modTeam t fun T =>
        { T with groups := List.map (fun g => (g.1, { Group.freeze g.2 with skidLeft := 0 })) T.groups } else s
    match s.teams.find? t with
    | none => none
    | some T =>
      let n := s.recordSize t T
      match s.saveRoom (s.vfOf T.space) n with
      | none => none
      | some off =>
        let halted := T.st == .halted || T.st.isHalting
        let s := (s.writeRecord t T off).keepPacks t
        let tiles : SMap TileSlot := (s.heldSlots t T).filterMap fun k => (s.slot? T.core k).map fun x => (k, x)
        let s := s.modCore T.core fun c =>
          { c with
            handler := if c.handler = some t then none else c.handler
            haltQ := setErase c.haltQ t
            tiles := List.map (fun (x : Nat × TileSlot) =>
              (x.1, if T.slots.contains x.1 then { x.2 with alloc := false, busy := true, gen := (x.2.gen + 1) % 256 } else x.2)) c.tiles }
        let takeBack (g : Nat × Group) : Nat × Group := (g.1, { g.2 with ops := g.2.ops.map LOp.takenBack })
        some (s.modTeam t fun T =>
          { T with st := .out halted, saveAt := off, saveSize := n, tiles := tiles, groups := List.map takeBack T.groups })

/-- The sector of a team. -/
def Team.sector (T : Team) : Nat := sectorOf T.core

/-- A team's launch, and its priority for arbiter and evictions: real-time above 3 (R269, R274). -/
def State.launchOf (s : State) (T : Team) : Option Launch := s.launches.find? T.launch
def Launch.level (L : Launch) : Nat := if L.realtime then (if L.spent then 0 else 4) else L.prio
def State.levelOf (s : State) (T : Team) : Nat := ((s.launchOf T).map Launch.level).getD 0

/-- The teams of T's cluster that have still to arrive at one of its barriers. -/
def State.notArrived (s : State) (T : Team) (n : Nat) : List Team :=
  match (s.launchOf T).bind fun L => L.clusters.find? T.cix with
  | none => []
  | some c => ((s.liveTeams c).filter fun t => !(c.bars.getD n Barrier.empty).teams.contains t).filterMap s.teams.find?

/-- A wait that only a stalled group of the core can end (R22): for registers; for a barrier at which only groups of the core are missing, a
latch, a hearth register, a knot or a sibling split; for a slot, where none is being released; for a slot's phase, where no arrival on it is
still to be recorded. -/
def State.internal (s : State) (T : Team) : Wait → Bool
  | .regs _ | .knot | .hclaim _ | .latchFull _ _ | .latchEmpty _ _ => true
  | .barrier clu n _ =>
    (if clu then s.notArrived T n else [T]).all fun T' => T'.core == T.core && T'.resident && T'.groups.all fun g => g.2.arrive.isEmpty
  | .talloc _ => (s.core T.core).tiles.all fun x => !x.2.busy
  | .tawt slot _ => !(s.core T.core).arrivals.any fun a => a.slot == slot
  | .member _ _ _ _ jto => jto == 0
  | _ => false

/-- A group can do nothing until another group of the core acts (R22). -/
def State.stuck (s : State) (T : Team) (g : Group) : Bool :=
  g.splits.all fun e => match e.2.st with
    | .ready | .frozen => false
    | .blocked => e.2.mark.isNone && s.internal T e.2.wait
    | .arrived => true
    | .parent => e.2.timer.isNone

/-- A group waits for a register. -/
def Group.starved (g : Group) : Bool := g.splits.any fun e => match e.2.st, e.2.wait with
  | .blocked, .regs _ => true
  | _, _ => false

/-- Every group of the core is stalled, one of them on allocation (R22). -/
def State.allStuck (s : State) (core : Nat) : Bool :=
  let ts := s.onCore core
  let live (T : Team) : List Group := (T.groups.map Prod.snd).filter fun g => !g.retired
  ts.all (fun t => t.2.st == .running && (live t.2).all (s.stuck t.2)) && ts.any fun t => (live t.2).any Group.starved

/-- The team that R22 evicts from a core: of the lowest priority, then the most recently admitted. -/
def State.starving (s : State) (core : Nat) : Option Nat :=
  let ts := (s.onCore core).filter fun t => t.2.groups.any fun g => !g.2.retired
  (ts.foldl (fun b t => match b with
    | none => some t
    | some x =>
      let lt := s.levelOf t.2 < s.levelOf x.2 || s.levelOf t.2 == s.levelOf x.2 && x.2.admitted < t.2.admitted
      if lt then some t else some x) none).map Prod.fst

/-- R22, R321: without room in the pool the team retires failed, cause 0. -/
def execRegisterEvict (s : State) : Res :=
  match s.ev with
  | .core c =>
    match s.starving c with
    | none => notNow "REGISTER_EVICT"
    | some t =>
      if !s.allStuck c then notNow "REGISTER_EVICT"
      else match s.saveTeam t with
        | some s => .next s
        | none => .next (s.failTeam t 0)
  | _ => notNow "REGISTER_EVICT"

/-! ### Readmission (R38, R287) -/

/-- What a saved team needs: its groups, and its mapped registers beyond their floors. -/
def Team.needs (L : Launch) (T : Team) : Needs :=
  { partition := L.partition
    groups := T.groups.length
    floors := sumOf (T.groups.filter fun g => !g.2.retired) fun g => g.2.floor
    pad := T.padSize / 64
    tiles := T.quota
    extra := sumOf T.groups fun g => g.2.uses - g.2.floor }

/-- A core has the room of R36 for a saved team (R287). -/
def State.fitsBack (s : State) (T : Team) (core : Nat) : Bool :=
  match s.launchOf T, T.st with
  | some L, .out _ =>
    let alone := L.width * L.height == 1
    (if alone then sectorOf core == T.sector && ((s.core core).partition == L.partition || s.drained core) else core == T.core) &&
      s.admits core (T.needs L)
  | _, _ => false

/-- The slots of a core that a returning team's tiles may take. -/
def State.openSlots (s : State) (core slots : Nat) : List Nat := (List.range slots).filter fun n => match s.slot? core n with
  | some x => !x.alloc && !x.busy
  | none => true

/-- A core may take a saved team back now: its slots for the tiles are zeroed (R242). -/
def State.mayReturn (s : State) (T : Team) (core : Nat) : Bool :=
  s.fitsBack T core && (s.launchOf T).any fun L => T.tiles.length ≤ (s.openSlots core (4 * fld L.partition.toNat 12 6)).length

/-- A lane access of the group is still to be translated, and none holds it up (R284). -/
def Group.unwalked (g : Group) : Bool := g.ops.any fun o => !o.kind.isView && o.accs.any fun a =>
  a.key.isNone && a.pad.isNone && a.token.isNone && !a.fab

/-- Restore a team on a core (R287): tiles in the lowest free slots with every handle rewritten (R167); its transaction records are replayed
before anything issues; faults pending since a debugger let it run are delivered first (R279, R280). -/
def State.restoreTeam (s : State) (t : Nat) (T : Team) (L : Launch) (core : Nat) : State :=
  let s := s.setPartition core L.partition
  let pairs := (T.tiles.map Prod.fst).zip (s.openSlots core (s.slotCount core))
  let f (n : Nat) : Nat := ((pairs.find? fun p => p.1 == n).map Prod.snd).getD n
  let genOf (n : Nat) : Nat := ((s.slot? core n).getD TileSlot.empty).gen
  let h (x : BitVec 16) : BitVec 16 :=
    let n := fld x.toNat 0 8
    if x = nullHandle ∨ !T.slots.contains n then x else BitVec.ofNat 16 (genOf (f n) * 256 + f n)
  let halted : Bool := match T.st with | .out b => b | _ => false
  let slots := s.freeGroupSlots core
  let base := (s.padRun core L.partition (T.padSize / 64)).getD 0
  let olds := (s.core T.core).arrivals.filter fun a => a.team == t
  let s := s.modCore T.core fun c => { c with arrivals := c.arrivals.filter fun a => a.team != t }
  let s := s.modCore core fun c =>
    { c with
      tiles := pairs.foldl (fun m p => match T.tiles.find? p.1 with
        | some x => SMap.insert m p.2 { x with gen := genOf p.2 }
        | none => m) c.tiles
      arrivals := c.arrivals ++ olds.map fun a => { a with slot := f a.slot }
      haltQ := if halted && !T.debug && T.cause.isNone then c.haltQ ++ [t] else c.haltQ }
  let move (o : EOp) : EOp := if o.team = t ∧ o.cmd.ofQueue = false then { o with core := core, cmd := o.cmd.mapSlots f } else o
  let moveAll (c : Nat × ECtx) : Nat × ECtx := (c.1, { c.2 with pend := c.2.pend.map move })
  let groups := T.groups.mapIdx fun i (g : Nat × Group) => (g.1, { Group.mapSlots core f h g.2 with slot := slots.getD i 0 })
  let back (T : Team) : Team :=
    { T with
      st := if halted then .halted else .running
      core := core
      padBase := base
      slots := T.slots.map f
      tiles := []
      saveSize := 0
      admitted := s.nextOrd
      groups := groups
      replay := T.groups.any fun g => g.2.unwalked }
  let s := s.modTeam t back
  let s := { s with ectxs := s.ectxs.map moveAll, nextOrd := s.nextOrd + 1 }
  if !halted && T.groups.any fun g => !g.2.pending.isEmpty then s.nextFault t else s

/-- R38 item 3, R287: no saved team of the context and sector with a higher priority could return now. -/
def execReadmit (s : State) : Res :=
  match s.ev with
  | .teamCore t core =>
    match s.teams.find? t with
    | none => notNow "READMIT"
    | some T =>
      let first := s.teams.all fun x => !(x.2.space == T.space && x.2.sector == T.sector && s.levelOf T < s.levelOf x.2 &&
        (List.range 24).any fun i => s.mayReturn x.2 (24 * T.sector + i))
      match s.launchOf T with
      | some L => if s.mayReturn T core && first then .next (s.restoreTeam t T L core) else notNow "READMIT"
      | none => notNow "READMIT"
  | _ => notNow "READMIT"

/-- Since when a group is parked in WAITM (R289). -/
def Group.waitmSince (g : Group) : Option Nat :=
  g.splits.foldl (fun b e => match e.2.wait, b with
    | .monitor _ _ _ since, none => some since
    | .monitor _ _ _ since, some x => some (min since x)
    | _, _ => b) none

/-- When a team became a candidate for eviction under R289: its longest park, if every group waits. -/
def Team.candidate (T : Team) (now : Nat) : Option Nat :=
  let since := T.groups.foldl (fun b g => match g.2.waitmSince, b with
    | some x, none => some x
    | some x, some y => some (min x y)
    | none, _ => b) none
  match since with
  | some x => if x + 18 * 20000 < now ∧ T.st == .running ∧ T.groups.all (fun g => g.2.retired || !g.2.ready) then some x else none
  | none => none

/-- The lowest group slot of a team. -/
def Team.lowSlot (T : Team) : Nat := T.groups.foldl (fun n g => min n g.2.slot) 64

/-- R289: team a, parked in WAITM over 20 µs, leaves for team b; without room in the pool nothing happens (R321). -/
def execWaitmEvict (s : State) : Res :=
  match s.ev with
  | .teams a b =>
    match s.teams.find? a, s.teams.find? b with
    | some A, some B =>
      let frees (t : Nat) (T : Team) : Bool := match s.saveTeam t with
        | some s => s.fitsBack B T.core
        | none => false
      let better (x : Nat × Team) : Bool := match x.2.candidate s.now, A.candidate s.now with
        | some p, some q =>
          let lx := s.levelOf x.2
          let la := s.levelOf A
          x.1 != a && x.2.core == A.core && x.2.space == B.space && frees x.1 x.2 &&
            (lx < la || lx == la && (p < q || p == q && x.2.lowSlot < A.lowSlot))
        | _, _ => false
      if A.space ≠ B.space ∨ A.sector ≠ B.sector ∨ (A.candidate s.now).isNone ∨ !frees a A ∨ s.teams.any better then
        notNow "WAITM_EVICT"
      else match s.saveTeam a with
        | some s => .next s
        | none => notNow "WAITM_EVICT"
    | _, _ => notNow "WAITM_EVICT"
  | _ => notNow "WAITM_EVICT"

/-! ### Retirement (R34, R267) -/

/-- The number of a team in its launch (R266). -/
def Launch.teamIndex (L : Launch) (T : Team) : Nat := T.cix * (L.width * L.height) + T.ty * L.width + T.tx

/-- The completion record (R267). -/
def State.completionRecord (s : State) (T : Team) : List Byte :=
  natBytes 4 (match T.cause with | none => 0 | some c => 1 + 256 * c) ++ wordBytes (s.tix T) ++ natBytes 8 T.cix ++ natBytes 8 s.ns ++
    natBytes 4 T.groups.length ++ natBytes 4 0 ++
    ((List.range 32).flatMap fun g => wordBytes (((T.groups.find? g).map Group.padFault).getD 0)) ++ natBytes 96 0

/-- The team's last work is over: its groups have retired, or a fatal fault has ended it; its stores and arrivals are done (R267). -/
def Team.over (T : Team) : Bool :=
  (T.cause.isSome || T.st == .running && T.groups.all fun g => g.2.retired) &&
    T.groups.all fun g => g.2.wbuf.isEmpty && (T.cause.isSome || g.2.arrive.isEmpty) && g.2.ops.all fun o => o.accs.isEmpty

/-- Write the completion record and, if this is the last team of a launch that has failed, the launch's status word: whether the record
and the status word could be written. -/
def retireW (a : Agent) (T : Team) (L : Launch) (id : Nat) : Work (Bool × Bool) := do
  let s ← get
  let wrote ← tryW (writeW a (L.area.toNat + 256 * L.teamIndex T) (s.completionRecord T))
  let last := L.retired.length + 1 == L.grid * (L.width * L.height)
  if last && (L.failed || T.cause.isSome || wrote.isNone) then
    let st ← tryW (launchStatusW a L.status.toNat 8 id)
    pure (wrote.isSome, st.isSome)
  else pure (wrote.isSome, true)

/-- Free what a team holds (R34): tile slots, knots, its place on the core; its steps close (R199). -/
def State.freeTeam (s : State) (t : Nat) (T : Team) : State :=
  let s := T.groups.foldl (fun s g => s.closeStep t g.1) s
  let s := T.slots.foldl (fun s n => s.dropSlot T.core n t) s
  let s := s.modCore T.core fun c =>
    { c with
      handler := if c.handler = some t then none else c.handler
      haltQ := setErase c.haltQ t
      knot := c.knot.filter fun k => k.team != t
      arrivals := c.arrivals.filter fun a => a.team != t }
  s.modTeam t fun T => { T with st := .retired, groups := [], pad := [], padBad := [], padSize := 0, quota := 0, hearth := [], bars := [] }

/-- R267: the record is written, the launch's counter advances, the team's room is freed, the sector controller tells the package
scheduler; the last team completes the packet. -/
def execTeamRetire (s : State) : Res :=
  match s.ev with
  | .team t =>
    match s.teams.find? t with
    | none => notNow "TEAM_RETIRE"
    | some T => match s.launches.find? T.launch with
      | none => notNow "TEAM_RETIRE"
      | some L =>
        if !T.here || !T.over || T.miss.isSome || !(s.link T.sector).mayTell then notNow "TEAM_RETIRE"
        else
          let a : Agent := ⟨L.space, T.core, T.declined, false⟩
          match runWork s a (.team t) (retireW a T L T.launch) with
          | .parked tok s => .next (s.modTeam t fun T => { T with miss := some tok })
          | .failed _ _ _ => notNow "TEAM_RETIRE"
          | .done (wrote, status) s =>
            let j := L.teamIndex T
            let s := (s.freeTeam t T).modCtx T.launch fun x => x.finish (j + 1)
            let done := L.retired.length + 1 == L.grid * (L.width * L.height)
            let s := { s with launches := s.launches.modify T.launch fun L =>
              { L with retired := setInsert L.retired j, failed := L.failed || T.cause.isSome || !wrote, complete := done } }
            let s := (if done then s.completePacket L.queue L.num else s).sendMessage T.sector true t
            .next (if done && !status then s.stopQueue L.queue 10 else s)
  | _ => notNow "TEAM_RETIRE"

end Sys2Proof.Machine
end

