-- ==== Sys2Proof/Machine/Place.lean ====
section
/-! DEFINITION. The package scheduler: placement of clusters (R268 to R271, R313), contract periods (R273) and view commits (R200, R306,
R310). -/
namespace Sys2Proof.Machine

/-! ### Placing clusters -/

/-- A group before it starts (R19, R25, R27): its floor, slot and engine contexts, its one split at the kernel's entry. -/
def Group.fresh (L : Launch) (slot mctx cctx gctx : Nat) : Group :=
  { v := [], s := [], sbad := [], p := [], q := [], t := []
    splits := [(0, { mask := 0xFFFFFFFF, act := 0xFFFFFFFF, pc := L.entry, jpc := 0, fmt := 0, parent := 0, st := .ready, tof := false,
                     back := .ready, wait := .none, mark := none, timer := none, joint := false, prog := none, later := []
                     all := 0xFFFFFFFF#32 })]
    alive := 0xFFFFFFFF, padFault := 0, retired := false, brd := 0, scv := 0, jto := 0, tvsel := 0, hgsel := 0
    fr := { flt := 0, pix := 0, skid := 0, fpc := 0, fcause := 0, fopn := 0, fopc := 0, faddr := 0, fit := [] }
    clkh := 0, floor := L.regs, slot := slot, mctx := mctx, cctx := cctx, gctx := gctx, lastIssue := 0, lastCycle := 0, issued := 0, skidLeft := 0
    haltSkid := 0, sibling := false, nextOp := 1, ops := [], wbuf := [], held := [], pending := [], haltCause := 0, handled := 0, latches := [], phases := []
    arrive := [], step := none, saved := none }

/-- Give a group of a team its three engine contexts (R153). -/
def State.newGroup (s : State) (L : Launch) (t g slot : Nat) : Group × State :=
  let (m, s) := s.newCtx (.matrix t g) L.space
  let (c, s) := s.newCtx (.copy t g) L.space
  let (x, s) := s.newCtx (.gather t g) L.space
  (Group.fresh L slot m c x, s)

/-- Admit one team to a core (R36, R224): it holds its room, and starts later. -/
def State.placeTeam (s : State) (id : Nat) (L : Launch) (core cix tx ty : Nat) : State :=
  let s := s.setPartition core L.partition
  let t := s.nextTeam
  let slots := s.freeGroupSlots core
  let base := (s.padRun core L.partition L.pad).getD 0
  let (gs, s) := (List.range L.groups).foldl (fun (x : SMap Group × State) g =>
    let (G, s) := x.2.newGroup L t g (slots.getD g 0)
    (x.1 ++ [(g, G)], s)) ([], s)
  let T : Team :=
    { st := .placed, launch := id, space := L.space, core := core, cix := cix, tx := tx, ty := ty, groups := gs, pad := [], padBad := []
      padBase := base, padSize := 64 * L.pad, hearth := [], bars := [], quota := L.tiles, slots := [], handling := none, cause := none
      debug := false, faulting := none, seenCluster := false, admitted := s.nextOrd, saveAt := 0, saveSize := 0, tiles := [], miss := none
      declined := false, replay := false }
  { s with teams := s.teams.insert t T, nextTeam := t + 1, nextOrd := s.nextOrd + 1 }

/-- The core at a column and row of a sector (R13). -/
def coreAt (sector x y : Nat) : Nat := 24 * sector + 4 * y + x

/-- The positions of a cluster's teams: tx and ty in ascending order (R266). -/
def Launch.cells (L : Launch) : List (Nat × Nat) := (List.range L.height).flatMap fun y => (List.range L.width).map fun x => (x, y)

/-- A rectangle can take the next cluster (R13, R268, R271, R273). -/
def State.rectFits (s : State) (L : Launch) (cix sector x0 y0 : Nat) : Bool :=
  x0 + L.width ≤ 4 && y0 + L.height ≤ 6 && (s.sectorsOf L).contains sector &&
    (L.rope.isNone || L.dies.getD (L.memberOf cix) 8 == sector / 8) &&
    L.cells.all fun c => s.admits (coreAt sector (x0 + c.1) (y0 + c.2)) L.needs

/-- Give the next cluster of a launch a rectangle, with the number of the message that will start it (R313). -/
def State.placeCluster (s : State) (id : Nat) (L : Launch) (msg sector x0 y0 : Nat) : State :=
  let first := s.nextTeam
  let s := L.cells.foldl (fun s c => s.placeTeam id L (coreAt sector (x0 + c.1) (y0 + c.2)) L.placed c.1 c.2) s
  let cl : Cluster := ⟨sector, x0, y0, (List.range (L.width * L.height)).map (first + ·), [], msg, s.now + 18 * 1000⟩
  { s with launches := s.launches.modify id fun L => { L with clusters := L.clusters.insert L.placed cl, placed := L.placed + 1 } }

/-- A launch awaits placement: of single clusters, or of its whole grid. -/
def Launch.waits (L : Launch) : Bool :=
  L.started && !L.complete && if L.coop then !L.reserved else L.placed < L.grid

/-- The rectangles that a launch's clusters may take: sector, column, row. -/
def State.spots (s : State) (L : Launch) : List (Nat × Nat × Nat) :=
  (s.sectorsOf L).flatMap fun sec => (List.range 6).flatMap fun y => (List.range 4).map fun x => (sec, x, y)

/-- Rectangles for n clusters of a launch, each the first that fits; fewer where one finds none. -/
def State.firstRects (id : Nat) : Nat → State → List (Nat × Nat × Nat)
  | 0, _ => []
  | n + 1, s =>
    match s.launches.find? id with
    | none => []
    | some L => match (s.spots L).find? fun r => s.rectFits L L.placed r.1 r.2.1 r.2.2 with
      | none => []
      | some r => r :: State.firstRects id n (s.placeCluster id L 0 r.1 r.2.1 r.2.2)

/-- A launch finds room: for its next cluster, or for its whole grid. -/
def State.canPlace (s : State) (id : Nat) (L : Launch) : Bool :=
  if L.coop then (s.firstRects id L.grid).length == L.grid
  else (s.spots L).any fun r => s.rectFits L L.placed r.1 r.2.1 r.2.2

/-- The level of a launch's queue (R269): 4 real-time. -/
def State.queueLevel (s : State) (L : Launch) : Nat := match s.queues.find? L.queue with
  | some Q => if Q.realtime then 4 else Q.prio
  | none => 0

/-- The order in which the scheduler serves launches (R269), smaller first: level, round robin by queue, packet order. -/
def State.placeKey (s : State) (L : Launch) : List Nat :=
  let lv := s.queueLevel L
  let last := s.served.getD lv 32767
  [4 - lv, (L.queue + 32768 - (last + 1) % 32768) % 32768, L.num]

/-- The contract that a launch runs under (R273). -/
def State.contractOf (s : State) (L : Launch) : Option Contract :=
  s.contracts.find? fun c => L.realtime && c.space == L.space && c.cid == L.contract

/-- Lexicographic order. -/
def keyLt : List Nat → List Nat → Bool
  | a :: as, b :: bs => a < b || a == b && keyLt as bs
  | _, _ => false

/-- Launch `a` goes before launch `b` by its contract (R273): both have one sector, and its deadline is earlier, or equal and its
identifier lower. -/
def State.sooner (s : State) (a b : Launch) : Bool := match s.contractOf a, s.contractOf b with
  | some x, some y =>
    x.sectors.any (y.sectors.contains ·) && keyLt [x.began + 18 * x.deadline, x.cid] [y.began + 18 * y.deadline, y.cid]
  | _, _ => false

/-- Launches that await placement and find room, without those that a sooner one goes before (R273). -/
def State.ready? (s : State) : List (Nat × Launch) :=
  let ls := s.launches.filter fun o => o.2.waits && s.canPlace o.1 o.2
  ls.filter fun o => !ls.any fun x => s.sooner x.2 o.2

/-- It is the turn of a launch (R269). -/
def State.launchTurn (s : State) (id : Nat) (L : Launch) : Bool :=
  let ls := s.ready?
  ls.any (fun o => o.1 == id) && !ls.any fun o => keyLt (s.placeKey o.2) (s.placeKey L)

/-- The launch's queue is the one last served at its level. -/
def State.serve (s : State) (L : Launch) : State := { s with served := s.served.insert (s.queueLevel L) L.queue }

/-- The message that starts a cluster by itself (R313); a whole grid's messages carry its launch's number. -/
def startMsg (id cix : Nat) : Nat := id + 2 ^ 24 * (cix + 1)

/-- R268, R269: the next cluster of the launch whose turn it is; a message to its sector starts it (R313). -/
def execClusterPlace (s : State) : Res :=
  match s.ev with
  | .place l sector x y =>
    match s.launches.find? l with
    | none => notNow "CLUSTER_PLACE"
    | some L =>
      if L.coop || !s.rectFits L L.placed sector x y || !s.launchTurn l L || !(s.link sector).mayAsk then notNow "CLUSTER_PLACE"
      else .next (((s.serve L).placeCluster l L (startMsg l L.placed) sector x y).sendMessage sector false (startMsg l L.placed))
  | _ => notNow "CLUSTER_PLACE"

/-- Reserve rectangles one after another (R270); none if one does not fit. -/
def State.reserve (id : Nat) : State → List (Nat × Nat × Nat) → Option State
  | s, [] => some s
  | s, r :: rs =>
    match s.launches.find? id with
    | none => none
    | some L =>
      if s.rectFits L L.placed r.1 r.2.1 r.2.2 then State.reserve id (s.placeCluster id L id r.1 r.2.1 r.2.2) rs else none

/-- R270, R271: the whole grid is reserved and committed, in its turn (R269), and one message to each sector starts it (R313); a reservation
that fails is released at once and changes nothing. -/
def execCoopReserve (s : State) : Res :=
  match s.ev with
  | .rects l rs =>
    match s.launches.find? l with
    | none => notNow "COOP_RESERVE"
    | some L =>
      let sectors := rs.foldl (fun n r => setInsert n r.1) []
      if !L.coop || rs.length != L.grid || !s.launchTurn l L || !sectors.all (fun x => (s.link x).mayAsk) then notNow "COOP_RESERVE"
      else match State.reserve l (s.serve L) rs with
        | none => notNow "COOP_RESERVE"
        | some s =>
          let s := { s with launches := s.launches.modify l fun L => { L with reserved := true } }
          .next (sectors.foldl (fun s x => s.sendMessage x false l) s)
  | _ => notNow "COOP_RESERVE"

/-- Clusters of a launch that wait for their start. -/
def State.toStart (s : State) (l : Nat) (L : Launch) : List (Nat × Cluster) :=
  L.clusters.filter fun c => s.teams.any fun t => t.2.launch == l && t.2.cix == c.1 && t.2.st == .placed

/-- The sector controller has taken a message and those before it: 1 µs after it was sent at the latest (R312, R313). -/
def State.takeMessage (s : State) (sector m : Nat) : State :=
  let go (_ : Nat) (s : State) : State :=
    if s.messageDown sector m then s.setLink sector ((s.link sector).setSide false ((s.link sector).side false).take) else s
  (List.range ((s.link sector).side false).waiting).foldr go s

/-- R313, R37: the teams of the launch whose message names the earliest package time start at that time, in every sector that has such a
message. -/
def execTeamStart (s : State) : Res :=
  match s.ev with
  | .launch l =>
    match (s.launches.find? l).map fun L => s.toStart l L with
    | some (c :: cs) =>
      let at_ := cs.foldl (fun n x => min n x.2.startAt) c.2.startAt
      let first := (c :: cs).filter fun x => x.2.startAt == at_
      let due := first.map Prod.fst
      let s := first.foldl (fun (s : State) x => s.takeMessage x.2.sector x.2.msg) s
      -- one that a debugger has halted before its start waits HALTED (R280)
      let begin_ (T : Team) : Team :=
        if T.debug then { T with st := .halted, groups := List.map (fun (g : Nat × Group) => (g.1, g.2.freeze)) T.groups }
        else { T with st := .running }
      let start (T : Team) : Team := if T.launch = l ∧ T.st = .placed ∧ due.contains T.cix then begin_ T else T
      .next { s.reachTime at_ with teams := List.map (fun (t : Nat × Team) => (t.1, start t.2)) s.teams }
    | _ => notNow "TEAM_START"
  | _ => notNow "TEAM_START"

/-! ### Contracts (R273) -/

/-- The contract of an address space with an identifier. -/
def State.contract? (s : State) (space cid : Nat) : Option Contract := s.contracts.find? fun c => c.space == space && c.cid == cid

def State.modContract (s : State) (space cid : Nat) (f : Contract → Contract) : State :=
  { s with contracts := s.contracts.map fun c => if c.space = space ∧ c.cid = cid then f c else c }

/-- Launches of a contract. -/
def Launch.under (L : Launch) (space cid : Nat) : Bool := L.realtime && L.space == space && L.contract == cid

/-- A team of the contract runs on a sector. -/
def State.runsFor (s : State) (c : Contract) (sector : Nat) : Bool :=
  s.teams.any fun t => t.2.here && t.2.sector == sector && (s.launchOf t.2).any fun L => L.under c.space c.cid

/-- R273: a period begins; its launches have their class again. -/
def execContractPeriod (s : State) : Res :=
  match s.ev with
  | .contract space cid =>
    match s.contract? space cid with
    | none => notNow "CONTRACT_PERIOD"
    | some c =>
      if !c.judged then notNow "CONTRACT_PERIOD"
      else
      let t := c.began + 18 * c.period
      let ran := if t < s.now then (c.sectors.filter (s.runsFor c)).foldl (fun (m : SMap Nat) x => m.insert x (s.now - t)) [] else []
      let s := (s.reachTime t).modContract space cid fun c => { c with began := t, judged := false, used := ran }
      .next { s with launches := List.map (fun (l : Nat × Launch) =>
        (l.1, if l.2.under space cid then { l.2 with spent := false } else l.2)) s.launches }
  | _ => notNow "CONTRACT_PERIOD"

/-- Count core time against the contracts: a contract has had what has passed of its period on each of its sectors on which a team of it
runs (R273). -/
def State.charge (s : State) (since : Nat) : State :=
  let add (c : Contract) : Contract :=
    let ticks := s.now - max since c.began
    { c with used := (c.sectors.filter (s.runsFor c)).foldl (fun m x => m.insert x (m.getD x 0 + ticks)) c.used }
  { s with contracts := s.contracts.map add }

/-- R273: the launches of a contract that has had more than its budget on a sector in this period drop to priority 0. -/
def execContractBudget (s : State) : Res :=
  match s.ev with
  | .contract space cid =>
    match s.contract? space cid with
    | none => notNow "CONTRACT_BUDGET"
    | some c =>
      let runs (L : Launch) : Bool := L.under space cid && !L.spent && !L.complete && 0 < L.placed
      if !c.used.any (fun x => 18 * c.budget < x.2) || !s.launches.any (fun l => runs l.2) then notNow "CONTRACT_BUDGET"
      else .next { s with launches := List.map (fun (l : Nat × Launch) => (l.1, if runs l.2 then { l.2 with spent := true } else l.2)) s.launches }
  | _ => notNow "CONTRACT_BUDGET"

/-- Add to the 32-bit deadline-miss count of a contract (R273). -/
def missesW (a : Agent) (c : Contract) (n : Nat) : Work Unit := do
  let w ← natW a (c.status.toNat + 8) 4
  writeW a (c.status.toNat + 8) (wordBytes (BitVec.ofNat 32 (w + n)))

/-- R273: each team still running at the deadline adds 1 to the count at status word + 8; the count waits for a miss that the driver services,
and a word that cannot be reached is not written. -/
def execContractDeadline (s : State) : Res :=
  match s.ev with
  | .contract space cid =>
    match s.contract? space cid with
    | none => notNow "CONTRACT_DEADLINE"
    | some c =>
      if c.miss.isSome || c.judged && c.owed == 0 then notNow "CONTRACT_DEADLINE"
      else
        let late := if c.judged then 0
          else (s.teams.filter fun t => t.2.st != .retired && t.2.st != .placed && (s.launchOf t.2).any fun L => L.under space cid).length
        let s := if c.judged then s else (s.reachTime (c.began + 18 * c.deadline)).modContract space cid fun c => { c with judged := true }
        let owe (n : Nat) (miss : Option Nat) (s : State) : Res :=
          .next (s.modContract space cid fun c => { c with owed := n, miss := miss, declined := false })
        if c.owed + late = 0 then .next s
        else
          let a : Agent := ⟨space, 0, c.declined, false⟩
          match runWork s a (.contract space cid) (missesW a c (c.owed + late)) with
          | .done _ s | .failed _ _ s => owe 0 none s
          | .parked tok s => owe (c.owed + late) (some tok) s
  | _ => notNow "CONTRACT_DEADLINE"

/-- The start of a contract's period lasts while the 8 µs of R285, from request to free core, run (R273, log entry 12). -/
def State.periodStarts (s : State) (c : Contract) : Bool := s.now ≤ c.began + 18 * 8000

/-- A contract's launch awaits placement on a sector at the start of a period, and finds no room (R273). -/
def State.contractWaits (s : State) (sector : Nat) : Bool :=
  s.launches.any fun l => l.2.waits && !l.2.spent && !s.canPlace l.1 l.2 && (s.contractOf l.2).any fun c =>
    c.sectors.contains sector && s.periodStarts c

/-- R273, R285: a team of a lower class is saved for a contract's launch; one whose last work is over retires instead (R275, R313), and without
room in the pool the save is not made (R321). -/
def execPreemption (s : State) : Res :=
  match s.ev with
  | .team t =>
    match s.teams.find? t with
    | none => notNow "PREEMPTION"
    | some T =>
      if !T.here || T.cause.isSome || T.over || (s.launchOf T).any Launch.realtime || !s.contractWaits T.sector then notNow "PREEMPTION"
      else match s.saveTeam t with
        | some s => .next s
        | none => notNow "PREEMPTION"
  | _ => notNow "PREEMPTION"

/-! ### View commits (R200, R306, R310, R317) -/

/-- The width that a commit makes (R306, R317): of a clipped request and the policy's target above W, the larger; W where neither asks. -/
def State.commitWidth (s : State) (space : Nat) (r : Rec) (q : Seq) : Nat :=
  let cap := ((s.ctxs.find? space).map fun x => x.policy.width).getD 8
  let req := if r.request = 0 then 0 else max 1 (min r.request cap)
  let target := if r.w < q.target then q.target else 0
  if req = 0 ∧ target = 0 then r.w else max req target

/-- Take a roped launch again under a new view (R271): it goes through R265's checks, and is refused as at its first taking where its grid
no longer fits; its descriptor is the one it was taken with (DEDUCED, log entry 61). -/
def retakeW (a : Agent) (id : Nat) (L : Launch) (ms : List Nat) (view : Nat) : Work Unit := do
  let L := { L with dies := ms, view := view }
  modify fun s => { s with launches := s.launches.insert id L }
  let code := (← get).launchCode L
  if code ≠ 0 then
    let ok ← tryW (launchStatusW a L.status.toNat code id)
    if ok.isNone then modify fun s => s.modQueue L.queue fun Q => { Q with stopAfter := some L.num } else pure ()
    modify fun s => State.completePacket { s with launches := s.launches.insert id { L with complete := true } } L.queue L.num

/-- Commit a view (R306): members 0 to min(W, W′) − 1 stay, new ones are chosen (log entry 12), the request is cleared; roped launches not
yet committed are taken again under it (R271). -/
def commitW (a : Agent) (rec : Nat) (r : Rec) (w : Nat) : Work Unit := do
  writeW a (rec + 8) (natBytes 1 w)
  writeW a (rec + 16) (natBytes 8 (r.view + 1))
  modify fun s =>
    let old := ((s.seqs.find? (seqKey a.space rec)).map Seq.members).getD []
    let (new, s) := State.chooseDies (w - old.length) s ((List.range 8).filter fun d => !old.contains d)
    let ms := old.take w ++ new
    s.modSeq a.space rec fun q => { q with members := ms, commit := false, target := 0 }
  let s ← get
  let ms ← (fun (x : Seq) => x.members) <$> seqW a rec
  for l in s.launches do
    if l.2.space == a.space && l.2.rope == some rec && !l.2.reserved && !l.2.complete then retakeW a l.1 l.2 ms (r.view + 1) else pure ()

/-- What comes of a scheduler's write for a sequence: done; waiting for a miss to be serviced; or not to be made. -/
def State.viewDone (s : State) (space rec : Nat) (a : Agent) (w : Work Unit) (f : Seq → Seq) : Res :=
  match runWork s a (.view space rec) w with
  | .done _ s => .next (s.modSeq space rec fun q => f { q with declined := false })
  | .parked tok s => .next (s.modSeq space rec fun q => { q with miss := some tok })
  | .failed _ _ _ => notNow "VIEW_COMMIT"

/-- R306, R310: the scheduler answers a request or the policy: it clears a request that asks for nothing, holds new begins while steps are
open, and commits once none is. -/
def execViewCommit (s : State) : Res :=
  match s.ev with
  | .view space rec =>
    match s.seqs.find? (seqKey space rec) with
    | none => notNow "VIEW_COMMIT"
    | some q =>
      let a : Agent := ⟨space, 0, q.declined, false⟩
      match (recW a rec).run s with
      | .error _ _ => notNow "VIEW_COMMIT"
      | .ok r s =>
        let w := s.commitWidth space r q
        if q.miss.isSome then notNow "VIEW_COMMIT"
        else if w = r.w then
          if r.request = 0 then notNow "VIEW_COMMIT"
          else s.viewDone space rec a (writeW a (rec + 8) (natBytes 1 r.w)) fun q => { q with commit := false }
        else if !q.steps.isEmpty then
          if q.commit then notNow "VIEW_COMMIT" else .next (s.modSeq space rec fun q => { q with commit := true })
        else s.viewDone space rec a (commitW a rec r w) id
  | _ => notNow "VIEW_COMMIT"

end Sys2Proof.Machine
end

