-- ==== Sys2Proof/Machine/EngineEvents.lean ====
section
/-! DEFINITION. The life of an engine operation after issue: start, k-steps, completion (R154 to R156, R161, R168, R175, R176, R309), and the
release of freed slots and blocks (R163, R303). -/
namespace Sys2Proof.Machine

/-! ### What may start -/

/-- Commands of the matrix engine and of the fabric (R153, R175). -/
def ECmd.isMatrix : ECmd → Bool
  | .mma _ _ _ _ _ _ _ _ _ _ | .sigq _ _ _ _ _ _ => true
  | _ => false
def ECmd.isFabric : ECmd → Bool
  | .cpy _ _ _ _ fabric => fabric
  | .mcst _ _ _ | .coll _ _ _ _ _ => true
  | _ => false

/-- The sequence record that a command names. -/
def ECmd.record : ECmd → Option Dword
  | .gath _ _ _ rec _ _ _ _ _ | .sigf rec _ _ _ _ _ _ | .pagein rec _ _ | .kvrel rec _ _ | .kvapp rec _ _ | .kvflush rec | .rpub rec _ _ _ =>
    some rec
  | _ => none

/-- The sequence that a KVAPP appends to. -/
def ECmd.appendsTo : ECmd → Option Dword
  | .kvapp rec _ _ => some rec
  | _ => none

/-- The accesses that its group issued before an operation are performed at team scope (R155, R249). -/
def State.storesSeen (s : State) (o : EOp) : Bool := match s.group? o.team o.grp with
  | some G => s.allDone o.team o.grp G o.upto 1
  | none => true

/-- The braided set of an operation; 0 for none (R174). -/
def EOp.braid (o : EOp) : Nat := match o.cmd with
  | .mma _ _ _ _ _ _ _ _ _ n => n
  | _ => 0

/-- The pending operations of a braided set, with their contexts. -/
def State.braidSet (s : State) (o : EOp) : List (Nat × EOp) := if o.braid = 0 then [] else s.eops.filter fun y => y.2.braid == o.braid

/-- Neither the scoreboard nor the group's stores hold an operation back, nor a WBLD that a save left behind (R155, R161, R203). -/
def State.unheld (s : State) (o : EOp) : Bool := s.opHere o && s.scoreboard o && s.storesSeen o && o.packFrom.isNone

/-- Nothing but its engine's own order holds an operation back (R155, R161, R197); a braided one runs with its set (R175). -/
def State.opReady (s : State) (o : EOp) : Bool :=
  !o.running && s.unheld o && match o.cmd with
    | .copy _ _ _ => false
    | .kvapp rec _ _ =>
      s.eops.all fun x => !(x.2.space == o.space && x.2.ord < o.ord && x.2.cmd.appendsTo == some rec)
    | _ => (s.braidSet o).all fun y => y.2.running || s.unheld y.2

/-- A member of an operation's braided set runs already: the contexts of the others wait for theirs. -/
def State.setRuns (s : State) (o : EOp) : Bool := (s.braidSet o).any fun y => y.2.running

/-- A matrix context can start an operation next (R309): number order by readiness, one at a time. -/
def State.contextFree (s : State) (x : ECtx) (o : EOp) : Bool :=
  x.pend.all fun y => !y.cmd.isMatrix || y.num == o.num || (!y.running && !s.setRuns y && (o.num < y.num || !s.opReady y))

/-- The order of an operation's engine lets it start: number order in a context, but by readiness in a matrix context, for all members of a
braided set at once (R156, R309); one tile vector operation at a time on a core (R176); one frame at a time in a session (R363). -/
def State.engineFree (s : State) (ctx : Nat) (x : ECtx) (o : EOp) : Bool :=
  if o.cmd.isMatrix then
    if s.setRuns o then x.pend.all fun y => !y.cmd.isMatrix || y.num == o.num || !y.running
    else s.contextFree x o && (s.braidSet o).all fun y => (s.ectxs.find? y.1).any fun z => s.contextFree z y.2
  else if o.cmd.isVector then
    s.eops.all fun y => !(y.2.core == o.core && y.2.cmd.isVector && s.opHere y.2) || (y.1 == ctx && y.2.num == o.num) ||
      (!y.2.running && (o.ord < y.2.ord || !s.opReady y.2))
  else
    (x.pend.all fun y => o.num ≤ y.num || y.running) && match x.owner with
      | .encoder _ => x.pend.all fun y => y.num == o.num || !y.running
      | _ => true

/-! ### Steps -/

/-- How far work in steps has come. -/
inductive Advance where
  | all (s : State)
  | parked (s : State)
  | failed (cause : Cause) (addr : Nat) (s : State)

/-- Do the steps of an operation from `prog` on, until one is parked or fails. -/
def State.advance (ctx num total : Nat) (step : EOp → Work Unit) : Nat → State → Advance
  | 0, s => .all s
  | n + 1, s =>
    match s.eop? ctx num with
    | none => .all s
    | some o =>
      if total ≤ o.prog then .all s
      else match runWork s o.agent (.engine ctx num) (step o) with
        | .done _ s => State.advance ctx num total step n (s.modEop ctx num fun o => { o with prog := o.prog + 1, declined := false })
        | .parked tok s => .parked (s.modEop ctx num fun o => { o with wait := [tok] })
        | .failed cause addr s => .failed cause addr s

/-- The steps of an operation that works in steps: how many, and what one does. -/
def ECmd.steps (ctx : Nat) : ECmd → Option (Nat × (EOp → Work Unit))
  | .cpy src dst len ls false => some (runCount ls * stepCount len, fun o => copyStepW o.agent src dst (copyStep src dst len ls o.prog))
  | .copy src dst len => some (stepCount len, fun o => do
      if 2 ≤ windowOf src.toNat then failW (if windowOf src.toNat = 4 then .xlat else .prot) src.toNat
      else if 2 ≤ windowOf dst.toNat then failW (if windowOf dst.toNat = 4 then .xlat else .prot) dst.toNat
      else copyStepW o.agent src dst (copyStep src dst len [] o.prog))
  | .cpy src dst len ls true =>
    some (runCount ls * stepCount len, fun o => cpyfStepW o.agent ctx o.num src dst (copyStep src dst len ls o.prog))
  | .mcst src dst len =>
    some ((lineParts (len + 1) (fabOffset dst.toNat) len).length, fun o => mcstStepW o.agent ctx o.num src dst len o.prog)
  | .coll op src _ count grp => some (collChunks count, fun o => collStepW o.agent ctx o op src count grp o.prog)
  | _ => none

/-- The iteration vector at which an operation stands (R156). -/
def EOp.iters (o : EOp) : List Nat := match o.cmd with
  | .cpy _ _ len ls _ => iterOf ls (o.prog / stepCount len)
  | _ => []

/-- A fabric operation may send its next step: a CPYF starts none before the last is performed (R185). -/
def EOp.maySend (ctx : Nat) (o : EOp) : Bool :=
  let left := match o.cmd.steps ctx with | some (total, _) => o.prog < total | none => false
  o.running && o.wait.isEmpty && o.failure.isNone && left && match o.cmd with
    | .cpy _ _ _ _ _ => o.back == o.sent
    | _ => true

/-- Send the next step of a fabric operation. -/
def State.sendMore (s : State) (ctx : Nat) (o : EOp) : State :=
  match o.cmd.steps ctx with
  | some (total, step) =>
    match State.advance ctx o.num total step 1 s with
    | .all s | .parked s => s
    | .failed cause addr s => s.modEop ctx o.num fun o => { o with failure := some (cause, addr) }
  | none => s

/-- The work of an operation that takes effect at its start (R300): a gather. -/
def ECmd.startWork (ctx : Nat) (o : EOp) : Option (Work Unit) := match o.cmd with
  | .gath k v m rec start count list vblk f => some (gathW o.agent ctx o rec.toNat k v m start count list vblk f)
  | .sigf rec first count list cap query radius => some (sigfW o.agent ctx o rec.toNat first count list cap query radius)
  | _ => none

/-- Do a gather's work; it keeps a failure until it completes. -/
def State.gatherNow (s : State) (ctx : Nat) (o : EOp) : State :=
  match ECmd.startWork ctx o with
  | none => s
  | some w => match runKept s o.agent (.engine ctx o.num) w with
    | .done _ s => s.modEop ctx o.num fun o => { o with prog := 1 }
    | .parked tok s => s.modEop ctx o.num fun o => { o with wait := [tok] }
    | .failed cause addr s => s.modEop ctx o.num fun o => { o with failure := some (cause, addr) }

/-- R161, R156: an operation starts. -/
def execEngineOpStart (s : State) : Res :=
  match s.ev with
  | .engine ctx num =>
    match s.ectxs.find? ctx, s.eop? ctx num with
    | some x, some o =>
      if !s.opReady o || !s.engineFree ctx x o then notNow "ENGINE_OP_START"
      else
        let s := s.modEop ctx num fun o => { o with running := true, since := s.now }
        let o := { o with running := true, since := s.now }
        -- a new operation on a record that is being retired fails (R320)
        match o.cmd.record.filter fun rec => s.retiring o.space rec.toNat with
        | some rec => .next (s.modEop ctx num fun o => { o with failure := some (.illegal, rec.toNat) })
        | none =>
        if o.cmd.isFabric then
          match o.cmd with
          | .mcst _ _ 0 => .next (s.doneOp ctx o)
          | _ => .next (s.sendMore ctx o)
        else .next (s.gatherNow ctx o)
    | _, _ => notNow "ENGINE_OP_START"
  | _ => notNow "ENGINE_OP_START"

/-! ### The matrix engine (R168, R175) -/

/-- The k-steps an operation still wants of the matrix engine: an MMA its eight, SIGQ as long (R168, R175). -/
def EOp.wantsStep (o : EOp) : Bool := o.cmd.isMatrix && o.running && o.prog < 8 && o.failure.isNone

/-- A member of a braided set has its turn when every member is ready and no other is behind it, or level with it in a lower group: the
set's k-steps interleave in ascending group order (R175). -/
def State.braidReady (s : State) (o : EOp) : Bool :=
  o.braid == 0 || s.eops.all fun y => y.2.braid != o.braid || y.2.failure.isSome ||
    (y.2.running && (o.prog < y.2.prog || o.prog == y.2.prog && o.grp ≤ y.2.grp))

/-- The operations of a core that are ready for a k-step, with the slot of their group. -/
def State.kstepReady (s : State) (core : Nat) : List (Nat × Nat × EOp) :=
  s.eops.filterMap fun x =>
    if x.2.core = core ∧ x.2.wantsStep ∧ s.opHere x.2 ∧ s.braidReady x.2 then
      some (((s.group? x.2.team x.2.grp).map Group.slot).getD 64, x.1, x.2)
    else none

/-- The lowest slot of a list that satisfies p. -/
def lowestSlot (l : List (Nat × Nat × EOp)) (p : Nat → Bool) : Option (Nat × Nat × EOp) :=
  (l.filter fun x => p x.1).foldl (fun b x => match b with
    | none => some x
    | some y => if x.1 < y.1 then some x else b) none

/-- Whose turn it is (R175): the lowest slot above the one last served, else the lowest. -/
def State.turn (s : State) (core : Nat) : Option (Nat × Nat × EOp) :=
  let l := s.kstepReady core
  match (s.core core).served with
    | none => lowestSlot l fun _ => true
    | some g => match lowestSlot l (g < ·) with
      | some x => some x
      | none => lowestSlot l fun _ => true

/-- R175, R168: one k-step; one that would read a poisoned word fails its operation (R366). -/
def execMatrixKstep (s : State) : Res :=
  match s.ev with
  | .core c =>
    match s.turn c with
    | none => notNow "MATRIX_KSTEP"
    | some (slot, ctx, o) =>
      let s := s.modCore c fun k => { k with served := some slot }
      if s.kstepBad o o.prog then .next (s.modEop ctx o.num fun o => { o with failure := some (.ecc, 0) })
      else .next ((s.kstep o).modEop ctx o.num fun o => { o with prog := o.prog + 1 })
  | _ => notNow "MATRIX_KSTEP"

/-! ### Completion -/

/-- The engine is idle when no operation wants a k-step, and none can start at once: it starts from slot 0 next (R156, R175). -/
def State.idleEngine (s : State) (core : Nat) : State :=
  let busy (o : EOp) : Bool := o.core == core && s.opHere o && (o.wantsStep || o.cmd.isMatrix && s.opReady o)
  if s.eops.any fun x => busy x.2 then s else s.modCore core fun c => { c with served := none }

/-- The work of an operation done in one piece at its end. -/
def ECmd.endWork (ctx : Nat) (s : State) (o : EOp) : Option (Work Unit) := match o.cmd with
  | .tld t rows addr stride => some (tldW o.agent o t rows addr stride)
  | .tst t rows addr stride => some (tstW o.agent o t rows addr stride)
  | .wbld e addr packed width scale => some (wbldW o.agent o e addr packed width scale)
  | .pagein rec first count => some (pageinW o.agent rec.toNat first count)
  | .kvrel rec first count => some (kvrelW o.agent rec.toNat first count)
  | .kvapp rec count src => some (kvappW o.agent o rec.toNat count src)
  | .kvflush rec => some (kvflushW o.agent rec.toNat)
  | .rpub rec member acc rst => some (rpubW o.agent o rec.toNat member acc rst)
  | .enc desc session => some (encW o.agent o.num desc.toNat
      (((List.find? (fun (x : Nat × Session) => x.2.id == session) s.pkg.sessions).map fun x => x.2.entry).getD []))
  | _ => ECmd.startWork ctx o

/-- A COPY packet completes (R262): a failure goes to the queue's status word. -/
def State.endCopy (s : State) (ctx : Nat) (o : EOp) (failure : Option (Cause × Nat)) : State :=
  match (s.ectxs.find? ctx).map ECtx.owner with
  | some (.queue q) => match failure with
    | none => s.completePacket q o.num
    | some (cause, addr) =>
      let s := (s.failOp ctx o cause addr []).dropItem q o.num
      if ((s.queues.find? q).map Queue.stopped).getD true then s
      else (s.modQueue q fun Q => { Q with status := BitVec.ofNat 32 (11 + 256 * cause.num) }).pokeStatus q
  | _ => s

/-- The operation as it stands, done or failed. -/
def State.endOp (s : State) (ctx : Nat) (o : EOp) (failure : Option (Cause × Nat)) : State :=
  let o := (s.eop? ctx o.num).getD o
  let s := s.readTiles o.core o.cmd.names
  match o.cmd, failure with
  | .copy _ _ _, _ => s.endCopy ctx o failure
  | _, none => s.doneOp ctx o
  | _, some (cause, addr) => s.failOp ctx o cause addr o.iters

/-- A fabric operation has all its answers (R188, R351). -/
def EOp.answered (o : EOp) : Bool := match o.cmd with
  | .coll _ _ _ count _ => o.failure.isSome || o.got.length == collChunks count
  | _ => o.back == o.sent

/-- R156: an operation completes, done or failed, and its counter advances. -/
def execEngineOpComplete (s : State) : Res :=
  match s.ev with
  | .engine ctx num =>
    match s.eop? ctx num with
    | none => notNow "ENGINE_OP_COMPLETE"
    | some o =>
      if !o.running || !o.wait.isEmpty || !s.opHere o then notNow "ENGINE_OP_COMPLETE"
      else if o.cmd.isFabric then
        let all := match o.cmd.steps ctx with | some (total, _) => o.prog == total | none => true
        if o.maySend ctx then .next (s.sendMore ctx o)
        else if (o.failure.isSome || all) && o.answered then .next (s.endOp ctx o o.failure) else notNow "ENGINE_OP_COMPLETE"
      else if o.failure.isSome then .next ((s.endOp ctx o o.failure).idleEngine o.core)
      else if o.cmd.isVector || o.cmd.isMatrix then
        if o.cmd.isMatrix && o.prog < 8 then notNow "ENGINE_OP_COMPLETE"
        else
          let (parts, bad) := s.vectorWork o
          let s := s.vectorDone o parts (bad.getD 64)
          .next ((s.endOp ctx o (bad.map fun _ => (.ecc, 0))).idleEngine o.core)
      else match o.cmd.steps ctx with
        | some (total, step) =>
          -- one step of 4 KiB at a time: a team may be saved between two (R203)
          match State.advance ctx num total step 1 s with
          | .all s => .next (if ((s.eop? ctx num).map EOp.prog).getD total < total then s else s.endOp ctx o none)
          | .parked s => .next s
          | .failed cause addr s => .next (s.endOp ctx o (some (cause, addr)))
        | none =>
          if o.prog = 1 then .next (s.endOp ctx o none)
          else match ECmd.endWork ctx s o with
            | none => .next (s.endOp ctx o none)
            | some w => match (if (ECmd.startWork ctx o).isSome then runKept else runWork) s o.agent (.engine ctx num) w with
              | .done _ s => .next (s.endOp ctx o none)
              | .parked tok s => .next (s.modEop ctx num fun o => { o with wait := [tok] })
              | .failed cause addr s => .next (s.endOp ctx o (some (cause, addr)))
  | _ => notNow "ENGINE_OP_COMPLETE"

/-! ### Slots and blocks -/

/-- R163: a freed slot is zeroed and free for use once every operation issued on it is complete. -/
def execTileSlotRelease (s : State) : Res :=
  match s.ev with
  | .slot c n =>
    match s.slot? c n with
    | none => notNow "TILE_SLOT_RELEASE"
    | some t =>
      let named := s.eops.any fun x => x.2.core == c && s.opHere x.2 && x.2.cmd.names.contains n
      let owned := s.teams.any fun x => x.2.core == c && x.2.here && x.2.slots.contains n
      -- a braided command that waits in a knot will write or read its slots (R174)
      let knotted := (s.core c).knot.any fun k => k.cmd.names.contains n
      if !t.busy || t.alloc || owned || named || knotted || s.tileReader c n s.nextOrd then notNow "TILE_SLOT_RELEASE"
      else .next ((s.modSlot c n fun t => { TileSlot.empty with gen := t.gen }).modCore c fun k =>
        { k with arrivals := k.arrivals.filter fun a =>
            a.slot != n || ((s.teams.find? a.team).map fun T => !T.here).getD false })
  | _ => notNow "TILE_SLOT_RELEASE"

/-- R303: a block without references and pins is zeroed and returns to its pool. -/
def execBlockRelease (s : State) : Res :=
  match s.ev with
  | .block space tier b =>
    match s.ctxs.find? space, s.blockMem tier b with
    | some x, some k =>
      let key := blockKey tier b
      if !x.release.contains key || SMap.getD x.pins key 0 != 0 then notNow "BLOCK_RELEASE"
      else .next ((s.zeroBytes k blockBytes).modBlocks space fun x =>
        { x.setPool tier (setInsert (x.pool tier) b) with release := setErase x.release key })
    | _, _ => notNow "BLOCK_RELEASE"
  | _ => notNow "BLOCK_RELEASE"

end Sys2Proof.Machine
end

