-- ==== Sys2Proof/Machine/Firmware.lean ====
section
/-! DEFINITION. Flash, images, markers, boot, recovery and identity (R311, R322 to R332, R365), and power (R11, R364). -/
namespace Sys2Proof.Machine

/-! ### Flash (R322) -/

/-- A slot's size, and that of its image area. -/
def slotBytes : Nat := 2 ^ 25
def areaBytes : Nat := 2 ^ 25 - 65536

/-- Read flash: an erased byte is 0xFF. -/
def Pkg.flashBytes (p : Pkg) (a n : Nat) : List Byte := (List.range n).map fun i => p.flash.getD (a + i) 0xFF

/-- Erase a range. -/
def Pkg.erase (p : Pkg) (a n : Nat) : Pkg := { p with flash := p.flash.filter fun c => !(a ≤ c.1 && c.1 < a + n) }

/-- Program bytes: programming only clears bits (R324). -/
def Pkg.program (p : Pkg) (a : Nat) (bs : List Byte) : Pkg :=
  { p with flash := (bs.zipIdx).foldl (fun m b => SMap.put 0xFF m (a + b.2) (SMap.getD m (a + b.2) 0xFF &&& b.1)) p.flash }

/-! ### Images (R323, R326) -/

/-- Field of n little-endian bytes at o. -/
def fieldOf (bs : List Byte) (o n : Nat) : Nat := bytesNat ((bs.drop o).take n)

/-- The body length that a header names. -/
def bodyLength (h : List Byte) : Nat := fieldOf h 12 4

/-- The image digest. -/
def imageDigest (img : List Byte) : List Byte := sha256 (img.take 128 ++ (img.drop 256).take (bodyLength img))

/-- The security version of an image. -/
def imageVersion (img : List Byte) : Nat := fieldOf img 8 4

/-- Verify an image whose body may be `limit` bytes long, against the fused root-key hash and version: 1 passed, else the first check that fails (R328). -/
def verifyImage (root : Nat) (img : List Byte) (limit fused : Nat) : Nat :=
  let part (o n : Nat) : List Byte := (img.drop o).take n
  if img.take 4 != [0x45, 0x52, 0x54, 0x4D] || fieldOf img 4 4 != 1 || 64 < imageVersion img || limit < bodyLength img ||
      img.length < 256 + bodyLength img || (part 32 96).any (· != 0) then 2
  else if bigNat (sha256 (part 192 64)) != root then 3
  else if !ecdsaOk (imageDigest img) (bigNat (part 128 32)) (bigNat (part 160 32)) (bigNat (part 192 32)) (bigNat (part 224 32)) then 4
  else if imageVersion img < fused then 5 else 1

/-- The image in a slot. -/
def Pkg.slotImage (p : Pkg) (k : Nat) : List Byte :=
  let h := p.flashBytes (slotBytes * k) 256
  h ++ p.flashBytes (slotBytes * k + 256) (min (bodyLength h) (areaBytes - 256))

/-- Verify a slot: 6 where the flash cannot be read, or its last read-back failed (R325). -/
def Pkg.verifySlot (p : Pkg) (unread : List Nat) (k : Nat) : Nat :=
  if unread.contains k || p.badSlots.contains k then 6 else verifyImage p.rootKey (p.slotImage k) (areaBytes - 256) p.fuses

/-! ### Markers (R324, R325) -/

/-- A marker copy: sequence and slot. -/
structure Marker where
  seq : Nat
  slot : Nat

/-- Parse a marker copy, if it is valid. -/
def parseMarker (bs : List Byte) : Option Marker :=
  if bs.take 4 == [0x53, 0x4C, 0x4F, 0x54] && fieldOf bs 8 1 < 2 && fieldOf bs 9 3 == 0 && fieldOf bs 12 4 == crc32 (bs.take 12) &&
      fieldOf bs 60 4 == 0x5A5A5A5A then some ⟨fieldOf bs 4 4, fieldOf bs 8 1⟩ else none

def Pkg.marker (p : Pkg) (k : Nat) : Option Marker := parseMarker (p.flashBytes (slotBytes * k + areaBytes) 64)

/-- Bytes 0 to 15 of a marker. -/
def markerHead (seq slot : Nat) : List Byte :=
  let h : List Byte := [0x53, 0x4C, 0x4F, 0x54] ++ natBytes 4 seq ++ natBytes 4 slot
  h ++ natBytes 4 (crc32 h)

/-- The valid copy with the highest sequence; copy 0 on equal sequences (R327). -/
def Pkg.bestMarker (p : Pkg) : Option Marker :=
  match p.marker 0, p.marker 1 with
  | some a, some b => some (if a.seq < b.seq then b else a)
  | some a, none => some a
  | none, m => m

/-- The copy that FW ACTIVATE writes: any invalid one, copy 0 if both are, else the one with the lower sequence (R325), copy 1 on equal
sequences. -/
def Pkg.markerTarget (p : Pkg) : Nat :=
  match p.marker 0, p.marker 1 with
  | none, _ => 0
  | some _, none => 1
  | some a, some b => if b.seq ≤ a.seq then 1 else 0

/-! ### Boot status (R328) -/

def State.bootStatus (s : State) : Word :=
  let p := s.pkg
  BitVec.ofNat 32 (p.stage + 16 * p.slot + 32 * p.fallback.toNat + 64 * p.copies + 256 * p.verdict0 + 4096 * p.verdict1)

/-! ### Package reset (R327, R365) -/

/-- The package without power, or before boot: flash, fuses, straps, sensors and host memory outlive it. -/
def State.cold (s : State) (powered : Bool) : State :=
  let host := s.mem.filter fun c => hostKey ≤ c.1
  { State.reset with
    mem := host
    free := s.free
    agenda := s.agenda
    pkg := { Pkg.reset with
      powered := powered, flash := s.pkg.flash, rootKey := s.pkg.rootKey, fuses := s.pkg.fuses, badSlots := s.pkg.badSlots, bifurcated := s.pkg.bifurcated
      sensor := s.pkg.sensor } }

/-- The order in which slots are tried. -/
def Pkg.bootOrder (p : Pkg) : List Nat :=
  match p.bestMarker with
  | none => [0, 1]
  | some m => [m.slot, 1 - m.slot]

/-- Record a verdict (R328). -/
def Pkg.judge (p : Pkg) (k v : Nat) : Pkg := if k = 0 then { p with verdict0 := v } else { p with verdict1 := v }

/-- Run an image: its digest is M0, its version the running one. -/
def Pkg.run (p : Pkg) (img : List Byte) : Pkg := { p with m0 := imageDigest img, svn := imageVersion img, m1 := List.replicate 32 0 }

/-- Try the slots in order; none boots in recovery mode (R329). -/
def Pkg.boot (unread : List Nat) (first : Nat) : List Nat → Pkg → Pkg
  | [], p => { p with stage := 8 }
  | k :: ks, p =>
    let v := p.verifySlot unread k
    let p := p.judge k v
    if v = 1 then { (p.run (p.slotImage k)) with slot := k, fallback := k != first, stage := 1 }
    else Pkg.boot unread first ks p

/-- A fabric port that starts training (R353). -/
def Port.training : Port := { Port.reset with st := .training 0 false }

/-- Ertum has done step 3 of bring-up (R365), which may fail; else the package is ready. -/
def State.bringUp (s : State) (b : BringUp) : State :=
  if !b.ok then { s with pkg := { s.pkg with loading := none, bringUp := BitVec.ofNat 32 (b.step + 256 * b.which) } }
  else { s with
    pkg := { s.pkg with loading := none, stage := 3, cxl := b.cxl, cxlFailed := b.untrained }
    fab := { s.fab with ports := (List.range 18).map fun i => (i, Port.training) } }

/-- R327, R365: the boot ROM decides; an image that passes is being loaded, and brings the package up. -/
def execPackageReset (s : State) : Res :=
  match s.ev with
  | .reset ok step which unread cxl untrained strap =>
    if !ok && !(1 ≤ step && step ≤ 3) || cxl.any (fun c => 10 ≤ c.1) || !cxl.sorted then .refused (.notEnabled "PACKAGE_RESET")
    else
      let s := s.cold true
      let p := s.pkg
      let copies := (p.marker 0).isSome.toNat + 2 * (p.marker 1).isSome.toNat
      let order := p.bootOrder
      let p := Pkg.boot unread (order.headD 0) order { p with copies := copies, badSlots := [], bifurcated := strap }
      .next { s with pkg := { p with loading := if p.stage = 1 then some ⟨ok, step, which, cxl, untrained⟩ else none } }
  | _ => .refused (.notEnabled "PACKAGE_RESET")

/-! ### Recovery (R329) -/

/-- The staging window as one image. -/
def Pkg.window (p : Pkg) : List Byte :=
  let h := (List.range 256).map fun i => p.staging.getD i 0
  h ++ (List.range (min (bodyLength h) (2 ^ 26 - 256))).map fun i => p.staging.getD (256 + i) 0

/-- R329: go starts the verification of the window, which takes no more writes. -/
def execRecoveryGo (s : State) : Res :=
  if s.pkg.stage ≠ 8 then .refused (.notEnabled "RECOVERY_GO") else .next { s with pkg := { s.pkg with stage := 9, recGo := true } }

/-- The window's verification ends (R329): its image runs, or recovery waits again. -/
def Pkg.judgeWindow (p : Pkg) : Pkg :=
  let v := verifyImage p.rootKey p.window (2 ^ 26 - 256) p.fuses
  if v = 1 then { (p.run p.window) with stage := 10 } else { p with stage := 8, verdict0 := v, recGo := false }

/-- The package's stage goes on (R327 to R329, R365) where the step began in it. -/
def State.settleBoot (s : State) (stage : Nat) : State :=
  if s.pkg.stage ≠ stage then s
  else match stage, s.pkg.loading with
    | 1, _ => { s with pkg := { s.pkg with stage := 2 } }
    | 2, some b => s.bringUp b
    | 9, _ => { s with pkg := s.pkg.judgeWindow }
    | _, _ => s

/-! ### Attestation (R330 to R332) -/

/-- The report for a nonce. -/
def State.report (s : State) (nonce : List Byte) : List Byte :=
  let p := s.pkg
  let body : List Byte := [0x41, 0x54, 0x54, 0x52] ++ natBytes 4 1 ++ natBytes 8 Config.serial.toNat ++ nonce ++ p.m0 ++ natBytes 4 p.svn ++
    natBytes 4 p.fuses ++ wordBytes s.bootStatus ++ natBytes 4 0 ++ p.m1 ++ natBytes 8 s.ns ++ List.replicate 56 0
  body ++ (List.range 64).map fun i => (Config.sign body).getD i 0

/-- Extend M1 by a command (R331). -/
def Pkg.extend (p : Pkg) (cmd : List Byte) : Pkg :=
  let c := cmd.take 4 ++ List.replicate 4 0 ++ (cmd.drop 8).take 40 ++ List.replicate 8 0 ++ cmd.drop 56
  { p with m1 := sha256 (p.m1 ++ c) }

/-! ### Power and heat (R364, R11) -/

/-- R11: nothing answers until the board cycles power. -/
def execPowerOff (s : State) : Res := .next (s.cold false)

/-- R364: the host's value is kept, and applies once no thermal cap holds. -/
def execPowerCap (s : State) : Res :=
  match s.ev with
  | .reg 0x20 v =>
    if 8 ≤ s.pkg.stage || v.toNat < 2000 || 5200 < v.toNat then .next s else .next { s with pkg := { s.pkg with powerCap := v } }
  | _ => .refused (.notEnabled "POWER_CAP")

/-- The cap in force, with the thermal mark (R358). -/
def State.effectiveCap (s : State) : Word :=
  if s.pkg.thermal then BitVec.ofNat 32 (2000 + 65536) else s.pkg.powerCap &&& 0xFFFF

/-- R364: a sensor passes 95 °C. -/
def execThermalCap (s : State) : Res :=
  match s.ev with
  | .value t =>
    if 950 < t ∧ t < 1050 then .next { s with pkg := { s.pkg with sensor := t, thermal := true, hotAt := s.now, msix := s.pkg.msix ++ [2] } }
    else .refused (.notEnabled "THERMAL_CAP")
  | _ => .refused (.notEnabled "THERMAL_CAP")

/-- R364: every sensor has read below 85 °C for one second without a break, which the last passing of 95 °C does not fall into. -/
def execThermalCapRelease (s : State) : Res :=
  match s.ev with
  | .value t =>
    if t < 850 ∧ s.pkg.thermal then
      .next { s with now := max s.now (s.pkg.hotAt + 18 * 10 ^ 9), pkg := { s.pkg with sensor := t, thermal := false } }
    else .refused (.notEnabled "THERMAL_CAP_RELEASE")
  | _ => .refused (.notEnabled "THERMAL_CAP_RELEASE")

/-- R364: at 105 °C the hardware removes power. -/
def execThermalShutdown (s : State) : Res :=
  match s.ev with
  | .value t =>
    if 1050 ≤ t then .next (State.cold { s with pkg := { s.pkg with sensor := t } } false)
    else .refused (.notEnabled "THERMAL_SHUTDOWN")
  | _ => .refused (.notEnabled "THERMAL_SHUTDOWN")

end Sys2Proof.Machine
end

