-- ==== Sys2Proof/Machine/PageEvents.lean ====
section
/-! DEFINITION. Page tables in use, migration of pages and homes (R238 to R240), and soft errors (R243). -/
namespace Sys2Proof.Machine

/-! ### Tables and pages in use -/

/-- Addresses of the entries of a table that are not all zero. -/
def State.entriesIn (s : State) (table : Nat) : List Nat :=
  (s.mem.filter fun c => table ≤ c.1 && c.1 < table + 65536).foldl (fun l c => setInsert l (c.1 / 8 * 8)) []

/-- The table that an entry points to, if it is a valid non-leaf entry. -/
def tableOf (e : Nat) : Option Nat := if pteBad e || fld e 1 1 == 1 || tableBad e then none else some (fld e 16 36 * 65536)

/-- The roots of every bound context. -/
def State.roots (s : State) : List Nat := s.ctxs.flatMap fun c => c.2.roots.take 2

/-- The tables of each step, reached from every root (R231). -/
def State.tables1 (s : State) : List Nat := (s.roots.filterMap tableOf).foldl setInsert []
def State.tablesBelow (s : State) (ts : List Nat) : List Nat :=
  ((ts.flatMap s.entriesIn).filterMap fun a => tableOf (s.nat a 8)).foldl setInsert []
def State.tables (s : State) : List Nat :=
  let t1 := s.tables1
  let t2 := s.tablesBelow t1
  t1 ++ t2 ++ s.tablesBelow t2

/-- The leaf entries of steps 2 and 3: address and pages. -/
def State.leaves (s : State) : List (Nat × Nat) :=
  let t2 := s.tablesBelow s.tables1
  let t3 := s.tablesBelow t2
  let leaf (n : Nat) (a : Nat) : Option (Nat × Nat) :=
    let e := s.nat a 8
    if !pteBad e && fld e 1 1 == 1 then some (a, n) else none
  (t2.flatMap s.entriesIn).filterMap (leaf 8192) ++ (t3.flatMap s.entriesIn).filterMap (leaf 1)

/-- The leaf entries that map an HBM frame (R234). -/
def State.mappers (s : State) (frame : Nat) : List Nat :=
  (s.leaves.filter fun l =>
    let e := s.nat l.1 8
    (fld e 52 4 == 0 || fld e 52 4 == 3) && fld e 16 36 ≤ frame && frame < fld e 16 36 + l.2).map Prod.fst

/-- A block that some pool, table or tail uses (R296, R298). -/
def State.blockInUse (s : State) (b : Nat) : Bool :=
  (s.ctxs.any fun c => c.2.pool0.contains b || (c.2.refs.find? (blockKey 0 b)).isSome || c.2.release.contains (blockKey 0 b)) ||
    s.seqs.any fun q => q.2.tail == .page b

/-- A frame that a migration may move a page to (R239): nothing names it. -/
def State.frameFree (s : State) (frame : Nat) : Bool :=
  frame * 65536 < hbmBytes && !(s.tables.contains (frame * 65536)) && (s.mappers frame).isEmpty && !s.blockInUse frame &&
    s.pkg.savePools.all fun p => !(p.2.1 ≤ frame * 65536 && frame * 65536 < p.2.1 + p.2.2)

/-! ### Accesses under way -/

/-- The accesses of groups that are translated and not performed: address space and address. -/
def State.underWay (s : State) : List (Nat × Nat) :=
  s.teams.flatMap fun t => t.2.groups.flatMap fun g =>
    (g.2.ops.flatMap fun o => (o.accs.filter fun a => a.key.isSome).map fun a => (t.2.space, a.ea.toNat)) ++
      g.2.wbuf.map fun b => (t.2.space, b.ea.toNat)

/-- Every access under way was translated as the new tables translate it (R235, R239). -/
def State.agrees (s s' : State) : Bool :=
  (s.teams.all fun t => t.2.groups.all fun g => g.2.ops.all fun o => o.shadow.isEmpty) &&
  s.underWay.all fun x => s.translate x.1 x.2 .read true == s'.translate x.1 x.2 .read true &&
    s.translate x.1 x.2 .write true == s'.translate x.1 x.2 .write true

/-! ### Migration (R239, R240) -/

/-- The address of the step-3 entry for an address. -/
def State.entryOf (s : State) (space va : Nat) : Option Nat :=
  match s.ctxs.find? space with
  | none => none
  | some c => match tableOf (c.roots.getD (fld va 55 2) 0) with
    | none => none
    | some t1 => match tableOf (s.nat (t1 + 8 * fld va 42 13) 8) with
      | none => none
      | some t2 => match tableOf (s.nat (t2 + 8 * fld va 29 13) 8) with
        | none => none
        | some t3 => some (t3 + 8 * fld va 16 13)

/-- The count of a die on a page. -/
def State.countOf (s : State) (page die : Nat) : Nat := s.counts.getD (page * 8 + die) 0

/-- Another die's count exceeds the home's by the factor of the policy (R240). -/
def State.mayMigrate (s : State) (space page home die : Nat) : Bool :=
  let f := ((s.ctxs.find? space).map fun x => x.policy.factor).getD 4
  die < 8 && die != home && f * s.countOf page home < s.countOf page die

/-- An entry with another frame. -/
def withFrame (e frame : Nat) : Nat := e - fld e 16 36 * 65536 + frame * 65536

/-- R239: a tier-0 page moves to a free frame of the die, or the home of a tier-1 or tier-2 page moves. -/
def execMigratePage (s : State) : Res :=
  match s.ev with
  | .page space va die frame =>
    match s.entryOf space va with
    | none => notNow "MIGRATE_PAGE"
    | some a =>
      let e := s.nat a 8
      match s.translate space (va / 65536 * 65536) .read true with
      | .hit key =>
        let page := key / 65536
        let tier := fld e 52 4
        if pteBad e || fld e 1 1 == 0 || fld e 5 1 == 1 || tier == 3 || !s.mayMigrate space page (s.homeDie key) die then
          notNow "MIGRATE_PAGE"
        else if tier = 0 then
          let old := fld e 16 36
          let s' := s.store a (natBytes 8 (withFrame e frame))
          if frame * 65536 / 2 ^ 38 != die || !s.frameFree frame || s.mappers old != [a] || s.tables.contains (old * 65536) ||
              s.blockInUse old || !s.agrees s' then notNow "MIGRATE_PAGE"
          else
            let s := ((s'.readMem (old * 65536) 65536).copyBytes (old * 65536) (frame * 65536) 65536).zeroBytes (old * 65536) 65536
            .next { s with
              owners := (SMap.erase s.owners old).insert frame space
              counts := s.counts.filter fun c => c.1 / 8 != old && c.1 / 8 != frame }
        else .next { s with homes := s.homes.insert page die }
      | _ => notNow "MIGRATE_PAGE"
  | _ => notNow "MIGRATE_PAGE"

/-- R240: every counter is halved. -/
def execMigrationCounterHalve (s : State) : Res :=
  .next { s with counts := (List.map (fun (c : Nat × Nat) => (c.1, c.2 / 2)) s.counts).filter fun c => c.2 != 0 }

/-! ### Soft errors (R243) -/

/-- R243: every word of HBM and die cache with a single-bit error is corrected and counted. -/
def execPatrolScrub (s : State) : Res :=
  .next (s.latent.foldl (fun s w => s.correct (s.homeDie (8 * w))) { s with latent := [] })

/-- An uncorrectable error in a core's control state, its split tables included (log entry 63), ends every team on it. -/
def State.loseCore (s : State) (core : Nat) : State := s.teams.foldl (fun s t =>
  if t.2.core == core && t.2.cause.isNone && (match t.2.st with | .out _ | .retired => false | _ => true) then s.failTeam t.1 15 else s) s

/-- A word poisoned by an uncorrectable error, or what the error destroys. -/
def State.strike (s : State) : ErrLoc → State
  | .mem key => s.taint (key / 8)
  -- the word is of 8 bytes: two lanes of a register, a pair of s registers
  | .vreg t g n k => s.modGroup t g fun G =>
    { G with v := G.v.modify n fun r => { r with bad := r.bad ||| Mask.one (k / 2 * 2) ||| Mask.one (k / 2 * 2 + 1) } }
  | .sreg t g n => s.modGroup t g fun G => { G with sbad := setInsert (setInsert G.sbad (n / 2 * 2)) (n / 2 * 2 + 1) }
  | .pad t w => s.modTeam t fun T => if 8 * w < T.padSize then { T with padBad := setInsert T.padBad w } else T
  | .tile c n w => s.modSlot c n fun x => { x with bad := setInsert x.bad w }
  | .weight c e w => s.modCore c fun k => { k with weights := k.weights.modify e fun x => { x with bad := setInsert x.bad w } }
  | .tail die n w => { s with tails := s.tails.modify (tailKey die n) fun x => { x with bad := setInsert x.bad w } }
  | .clean _ => s
  | .control c => s.loseCore c
  | .split t _ _ => match s.teams.find? t with
    | some T => s.loseCore T.core
    | none => s

/-- R243: a single-bit error is corrected when it is read or scrubbed; a second one in the word, or a double-bit error, poisons it. Control state
is read all the time, and a clean copy with an error is fetched again (log entry 63). -/
def execSoftError (s : State) : Res :=
  match s.ev with
  | .error loc double =>
    match loc with
    | .mem key =>
      if hostKey ≤ key then notNow "SOFT_ERROR"
      else if double || s.latent.contains (key / 8) then
        .next { s.strike loc with latent := setErase s.latent (key / 8) }
      else .next { s with latent := setInsert s.latent (key / 8) }
    | .control _ | .split _ _ _ | .clean _ => .next (if double then s.strike loc else s.correct (s.dieAt loc))
    | _ =>
      if double || s.flips.contains (ErrLoc.word loc) then .next { s.strike loc with flips := s.flips.filter fun x => x != ErrLoc.word loc }
      else .next { s with flips := s.flips ++ [ErrLoc.word loc] }
  | _ => notNow "SOFT_ERROR"

end Sys2Proof.Machine
end

