-- ==== Sys2Proof/Machine/Admin.lean ====
section
/-! DEFINITION. The admin ring and its commands (R315 to R321, R325, R326, R330, R332). -/
namespace Sys2Proof.Machine

/-! ### Fields -/

def AdminCmd.code (c : AdminCmd) : Nat := fieldAt c.bytes 0 1
def AdminCmd.f (c : AdminCmd) (o n : Nat) : Nat := fieldAt c.bytes o n

/-- The named operand bytes of a command (R317): offset and length; none for an unknown code. -/
def operandsOf (code : Nat) : Option (List (Nat × Nat)) :=
  match code with
  | 0x01 => some [(8, 9)]
  | 0x02 => some [(8, 2)]
  | 0x03 => some [(8, 32)]
  | 0x04 => some [(8, 4)]
  | 0x05 => some [(8, 3), (16, 16)]
  | 0x06 => some [(8, 9)]
  | 0x07 => some [(8, 1), (16, 16)]
  | 0x08 => some [(8, 3), (12, 8)]
  | 0x09 => some [(8, 2), (16, 8)]
  | 0x0A => some [(8, 2), (16, 12)]
  | 0x0B => some [(8, 8)]
  | 0x0C => some [(8, 2)]
  | 0x0D => some [(8, 3), (16, 8)]
  | 0x0E => some [(8, 2), (16, 3)]
  | 0x0F => some [(8, 3), (16, 3)]
  | 0x10 => some [(8, 12)]
  | 0x11 => some [(8, 1)]
  | 0x12 => some []
  | 0x13 => some [(8, 40)]
  | 0x14 => some [(8, 8)]
  | _ => none

/-- The common form of a command holds (R316): flags, reserved and unnamed bytes, the alignment of the completion address. -/
def AdminCmd.formed (c : AdminCmd) : Bool :=
  match operandsOf c.code with
  | none => false
  | some ops =>
    let named (i : Nat) : Bool := ops.any fun p => p.1 ≤ i && i < p.1 + p.2
    c.f 1 1 ≤ 1 && c.f 2 2 == 0 && c.f 48 8 % 8 == 0 && c.f 56 8 == 0 &&
      (List.range 40).all fun i => named (8 + i) || c.f (8 + i) 1 == 0

/-- Firmware commands run one at a time (R315). -/
def AdminCmd.firmware (c : AdminCmd) : Bool := 0x10 ≤ c.code && c.code ≤ 0x12

/-- Commands that extend M1 (R331). -/
def AdminCmd.measured (c : AdminCmd) : Bool := [0x01, 0x03, 0x0B, 0x0C, 0x07, 0x08, 0x0D].contains c.code

/-! ### The life of a command (R315, R316) -/

/-- A command completes, with whatever status: its 8 bytes are written, vector 0 is raised (R357), M1 extended (R331). The completion has no
field for the tag (log entry 63). -/
def State.finishCmd (s : State) (c : AdminCmd) (status result : Nat) : State :=
  let s := s.store (hostKey + c.f 48 8) (natBytes 4 status ++ natBytes 4 result)
  let p := if c.measured then s.pkg.extend c.bytes else s.pkg
  { s with pkg := { p with msix := p.msix ++ [0], cmds := p.cmds.filter fun x => x.num != c.num } }

/-- A command may start: every earlier one has started; with the fence it has completed (R315). -/
def Pkg.mayStart (p : Pkg) (c : AdminCmd) : Bool :=
  let e := p.cmds.takeWhile fun x => x.num != c.num
  c.began || e.all AdminCmd.began && (!c.fence || e.isEmpty)

/-- A command that completes as soon as its turn comes (R315): one with an unknown code, or a firmware command while another runs. -/
def Pkg.refusesNow (p : Pkg) (c : AdminCmd) : Option Nat :=
  if (operandsOf c.code).isNone then some 1
  else if c.firmware && !c.began && p.cmds.any (fun x => x.firmware && x.began) then some (if c.formed then 3 else 1) else none

/-- Complete the commands that are answered at once. -/
def State.dropUnknown : Nat → State → State
  | 0, s => s
  | n + 1, s =>
    match s.pkg.cmds.find? fun c => (s.pkg.refusesNow c).isSome && s.pkg.mayStart c with
    | some c => State.dropUnknown n (s.finishCmd c ((s.pkg.refusesNow c).getD 1) 0)
    | none => s

/-- Take the command at the consumer index: the read word advances. -/
def State.takeCmd (s : State) : State :=
  let p := s.pkg
  let bs := s.bytes (hostKey + p.adminBase.toNat + 64 * (p.adminCons % 2 ^ p.adminLog2)) 64
  let c : AdminCmd := ⟨p.adminCons, bs, fieldAt bs 1 1 % 2 == 1, false, false, none⟩
  let next := (p.adminCons + 1) % 2 ^ 32
  let s := s.store (hostKey + p.adminRead.toNat) (natBytes 4 next)
  { s with pkg := { s.pkg with adminCons := next, cmds := s.pkg.cmds ++ [c] } }

def State.takeCmds : Nat → State → State
  | 0, s => s
  | n + 1, s => State.takeCmds n s.takeCmd

/-- The admin ring is served: the package is ready, or a recovery image runs (R329, R365). -/
def Pkg.served (p : Pkg) : Bool := p.stage == 3 || p.stage == 10

/-- Serve the admin ring (R315): read the pull word and take the commands; an index too far ahead takes none (R259). -/
def State.serveAdmin (s : State) : State :=
  let p := s.pkg
  if !p.served || !(6 ≤ p.adminLog2 && p.adminLog2 ≤ 16) then s
  else
    let n := (s.nat (hostKey + p.adminPull.toNat) 4 + 2 ^ 32 - p.adminCons) % 2 ^ 32
    let s := { s with pkg := { s.pkg with adminBell := false } }
    if 2 ^ p.adminLog2 < n then s else (State.takeCmds n s).dropUnknown (n + 1)

/-- R315; before stage 3 the doorbell is kept (R365). In recovery there is no admin ring until the image runs (R329). -/
def execAdminDoorbell (s : State) : Res :=
  .next (if s.pkg.stage = 8 ∨ s.pkg.stage = 9 then s else State.serveAdmin { s with pkg := { s.pkg with adminBell := true } })

/-- What a command's work answers: a status and a result, that it must wait, or that it has gone on and waits for more. -/
inductive Answer where
  | done (status result : Nat) (s : State)
  | wait (s : State)
  | more (s : State)

/-- Perform a pending command of one code, or go on with it: `ok` are its operand checks (status 1), `fresh` the work of its start,
`again` that of a started command. Progress is a first start or a completion. -/
def adminRow (name : String) (code : Nat) (recovery : Bool) (ok : AdminCmd → Bool) (fresh again : AdminCmd → Bool → State → Answer)
    (s : State) : Res :=
  match s.ev with
  | .cmd i fails =>
    match s.pkg.cmds[i]? with
    | none => .refused (.notEnabled name)
    | some c =>
      if c.code ≠ code ∨ !s.pkg.mayStart c then .refused (.notEnabled name)
      else
        let finish (status result : Nat) (s : State) : Res :=
          let s := s.finishCmd c status result
          .next (s.dropUnknown (s.pkg.cmds.length + 1))
        if !c.formed || !ok c || s.pkg.stage == 10 && !recovery then finish 1 0 s
        else if c.began then
          match again c fails s with
          | .done st r s => finish st r s
          | .more s => .next s
          | .wait s' => if s'.nextToken = s.nextToken then .refused (.notEnabled name) else .next s'
        else
          match fresh c fails s with
          | .done st r s => finish st r s
          | .wait s | .more s =>
            let start (x : AdminCmd) : AdminCmd := if x.num = c.num then { x with began := true } else x
            let s := { s with pkg := { s.pkg with cmds := s.pkg.cmds.map start } }
            .next (s.dropUnknown (s.pkg.cmds.length + 1))
  | _ => .refused (.notEnabled name)

/-- A command done in one piece. -/
def adminOnce (name : String) (code : Nat) (ok : AdminCmd → Bool) (work : AdminCmd → State → Answer) (s : State) : Res :=
  adminRow name code false ok (fun c _ s => work c s) (fun c _ s => work c s) s

def anyOperands (_ : AdminCmd) : Bool := true

/-- With a bound address space, else status 2. -/
def State.inSpace (s : State) (space : Nat) (go : Ctx → Answer) : Answer :=
  match s.ctxs.find? space with
  | some x => go x
  | none => .done 2 0 s

/-! ### Contexts (R258, R230) -/

/-- A root entry that BIND accepts (R230). -/
def rootOk (e : Nat) : Bool := e == 0 || !(pteBad e || fld e 1 1 == 1 || tableBad e)

/-- R317. -/
def execBind (s : State) : Res :=
  adminOnce "BIND" 0x01 (fun c => c.f 8 8 % 256 == 0 && c.f 8 8 < hbmBytes && c.f 16 1 < 64) (fun c s =>
    let d := s.bytes (c.f 8 8) 256
    let root (i : Nat) : Nat := fieldAt d (8 * i) 8
    let space := fieldAt d 52 2
    if root 2 ≠ 0 ∨ root 3 ≠ 0 ∨ !rootOk (root 0) ∨ !rootOk (root 1) ∨ (s.ctxs.find? space).isSome then .done 1 0 s
    else
      let x : Ctx :=
        { roots := (List.range 4).map root, handler := BitVec.ofNat 64 (fieldAt d 32 8), ring := BitVec.ofNat 64 (fieldAt d 40 8)
          entries := fieldAt d 48 4, ringNext := 0, vf := c.f 16 1, fatal := false, armed := false, trace := 0, policy := ⟨8, 4, 0⟩
          pool0 := [], pool1 := [], refs := [], pins := [], release := [] }
      .done 0 0 { s with ctxs := s.ctxs.insert space x }) s

/-- R317: status 3 while a team, queue or sequence record of the space exists. Frames keep the space as their owner, so that a context bound
under the same identifier again counts as the same owner (DESIGN CHOICE, log entry 63). -/
def execUnbind (s : State) : Res :=
  adminOnce "UNBIND" 0x02 anyOperands (fun c s =>
    let space := c.f 8 2
    s.inSpace space fun _ =>
      if (s.teams.any fun t => t.2.space == space && t.2.st != .retired) || (s.queues.any fun q => q.2.space == space) ||
          s.seqs.any fun q => q.1 / 2 ^ 64 == space then .done 3 0 s
      else .done 0 0 { s with ctxs := s.ctxs.erase space }) s

/-! ### Queues (R259, R260, R368) -/

/-- R317: the descriptor of a queue; a queue set for the first time starts at index 0 with a new engine context. -/
def execQueueSet (s : State) : Res :=
  adminOnce "QUEUE SET" 0x03 (fun c => c.f 8 4 < 32768 && 6 ≤ c.f 12 1 && c.f 12 1 ≤ 16 && c.f 13 1 ≤ 4 && c.f 16 8 % 4096 == 0 &&
      c.f 24 8 % 4 == 0 && c.f 32 8 % 4 == 0) (fun c s =>
    let q := c.f 8 4
    let space := c.f 14 2
    s.inSpace space fun x =>
      let set (Q : Queue) : Queue :=
        { Q with
          vf := x.vf, space := space, ring := BitVec.ofNat 64 (c.f 16 8), log2 := c.f 12 1, pull := BitVec.ofNat 64 (c.f 24 8)
          read := BitVec.ofNat 64 (c.f 32 8), prio := c.f 13 1 % 4, realtime := c.f 13 1 == 4 }
      match s.queues.find? q with
      | some Q =>
        if !Q.items.isEmpty then .done 3 0 s
        else .done 0 0 ((s.modCtx Q.ectx fun x => { x with space := space }).modQueue q set)
      | none =>
        let (e, s) := s.newCtx (.queue q) space
        let Q : Queue :=
          { vf := 0, space := 0, ring := 0, log2 := 6, pull := 0, read := 0, prio := 0, realtime := false, cons := 0, prod := 0
            stopped := false, status := 0, ectx := e, taken := 0, items := [], arm := [], loose := 0, trace := 0, traceTime := 0
            miss := none, declined := false, stopAfter := none, bell := false }
        .done 0 0 (State.pokeStatus { s with queues := s.queues.insert q (set Q) } q)) s

/-- R317, R368: the stop is cleared, and what the ring holds is passed over, but for packets of an arm that a COND has taken; a pull word that cannot be read stops the queue with 10. -/
def execQueueReset (s : State) : Res :=
  adminOnce "QUEUE RESET" 0x04 (fun c => c.f 8 4 < 32768) (fun c s =>
    let q := c.f 8 4
    match s.queues.find? q with
    | none => .done 2 0 s
    | some Q =>
      let a : Agent := ⟨Q.space, 0, c.declined, false⟩
      match runWork s a (.admin c.num) (natW a Q.pull.toNat 4) with
      | .parked _ s => .wait s
      | .failed _ _ s => .done 3 0 (s.stopQueue q 10)
      | .done p s =>
        .done 0 p ((s.modQueue q fun Q =>
          { Q with cons := p, prod := p, stopped := false, status := 0, bell := false, loose := Q.arm.length, declined := false
                   stopAfter := none }).pokeStatus q)) s

/-! ### Page tables (R232, R233, R235, R242) -/

/-- A value that TABLE UPDATE accepts at a step (R317). -/
def entryOk (step e : Nat) : Bool :=
  e == 0 || fld e 56 8 == 0 && fld e 6 10 == 0 && fld e 52 4 ≤ 3 &&
    if fld e 1 1 = 1 then step ≠ 1 && (step ≠ 2 || fld e 16 13 == 0) else step ≠ 3 && !tableBad e

/-- A frame of HBM or second-tier memory that a leaf maps: its key and its pages; host pages are never zeroed (R242). -/
def State.mapped (s : State) (step e : Nat) : Option (Nat × Nat) :=
  if fld e 0 1 = 0 ∨ fld e 1 1 = 0 ∨ fld e 52 4 = 2 then none
  else (s.frameKey (fld e 52 4) (fld e 16 36 * 65536)).map fun k => (k, if step = 2 then 8192 else 1)

/-- Own n frames from a key on. -/
def ownRun (m : SMap Nat) (page n space : Nat) : SMap Nat :=
  let low := m.filter fun (x : Nat × Nat) => x.1 < page
  low ++ (List.range n).map (fun i => (page + i, space)) ++ m.filter fun (x : Nat × Nat) => page + n ≤ x.1

/-- Zero a newly owned page (R242) and write the entry. An owner is an address-space identifier (log entry 63). -/
def State.writeEntry (s : State) (space step addr e : Nat) : State :=
  let s := match s.mapped step e with
    | none => s
    | some (k, n) =>
      let page := k / 65536
      let mine := (s.owners.filter fun (x : Nat × Nat) => page ≤ x.1 && x.1 < page + n && x.2 == space).length == n
      let s := if mine then s else s.zeroBytes k (65536 * n)
      { s with owners := ownRun s.owners page n space }
  s.store addr (natBytes 8 e)

/-- R235: the update completes once every access translated with the old entry is performed; those of one address space keep ring
order (R315). -/
def execTableUpdate (s : State) : Res :=
  adminOnce "TABLE UPDATE" 0x05 (fun c => 1 ≤ c.f 10 1 && c.f 10 1 ≤ 3 && c.f 16 8 % 8 == 0 && c.f 16 8 < hbmBytes &&
      entryOk (c.f 10 1) (c.f 24 8)) (fun c s =>
    let space := c.f 8 2
    s.inSpace space fun _ =>
      let earlier := (s.pkg.cmds.takeWhile fun x => x.num != c.num).any fun x => x.code == 0x05 && x.f 8 2 == space
      let s' := s.writeEntry space (c.f 10 1) (c.f 16 8) (c.f 24 8)
      if earlier || !s.agrees s' then .wait s else .done 0 0 s') s

/-! ### Fault replies (R237, R284, R319) -/

/-- A parked piece of work learns the reply to its token. -/
def State.reply (declined : Bool) (tok : Nat) (s : State) (w : WalkRef) : State :=
  match w with
  | .lane t g id k =>
    s.modGroup t g fun G => G.modOp id fun o =>
      { o with accs := o.accs.map fun a =>
          if (a.lane == k || o.kind.isView) && a.token == some tok then { a with token := none, declined := declined, replay := true } else a }
  | .engine c n => s.modEop c n fun o =>
      { o with wait := setErase o.wait tok, declined := declined || o.declined }
  | .split t g i =>
    let e' (e : Split) : Split :=
      if e.wait = .walk tok then
        { e with wait := if declined then .declined else .none
                 st := if e.st = .blocked then .ready else e.st
                 back := if e.back = .blocked then .ready else e.back }
      else e
    s.modGroup t g fun G =>
      { G.modSplit i e' with saved := G.saved.map fun x => { x with splits := x.splits.modify i e' } }
  | .queue q => match s.queues.find? q with
    | none => s
    | some Q =>
      if Q.miss = some tok then s.modQueue q fun Q => { Q with miss := none, declined := declined }
      else if declined then s else s.pokeStatus q
  | .team t => s.modTeam t fun T => if T.miss = some tok then { T with miss := none, declined := declined || T.declined } else T
  | .packet key n =>
    let say (w : Window) : Window :=
      if w.waits.find? n = some tok then
        { w with waits := w.waits.erase n, declined := if declined then setInsert w.declined n else w.declined }
      else w
    { s with fab := { s.fab with windows := s.fab.windows.modify key say } }
  | .run key n =>
    let say (u : Unacked) : Unacked :=
      if u.pkt.seq.toNat = n ∧ u.wait = some tok then { u with wait := none, declined := declined } else u
    { s with fab := { s.fab with runs := s.fab.runs.modify key fun r => { r with flight := r.flight.map say } } }
  | .contract space cid => s.modContract space cid fun c => if c.miss = some tok then { c with miss := none, declined := declined } else c
  | .view space rec => s.modSeq space rec fun q => if q.miss = some tok then { q with miss := none, declined := declined } else q
  | .admin n =>
    let say (c : AdminCmd) : AdminCmd := if c.num = n then { c with declined := declined || c.declined } else c
    { s with pkg := { s.pkg with cmds := s.pkg.cmds.map say } }

/-- R319. -/
def execFaultReply (s : State) : Res :=
  adminOnce "FAULT REPLY" 0x06 (fun c => c.f 16 1 ≤ 2) (fun c s =>
    match s.parked.find? (c.f 8 8) with
    | none => .done 2 0 s
    | some p =>
      let act := c.f 16 1
      let s := { s with parked := s.parked.erase (c.f 8 8) }
      let s := if act = 2 then { s with ctxs := s.ctxs.modify p.space fun x => { x with fatal := true } } else s
      .done 0 0 (p.refs.foldl (State.reply (act != 0) (c.f 8 8)) s)) s

/-! ### Pools and policy (R229, R286, R296, R317) -/

/-- R317: status 3 while a team of the function is OUT. -/
def execSavePool (s : State) : Res :=
  adminOnce "SAVE POOL" 0x07 (fun c => c.f 8 1 < 64 && c.f 16 8 % 65536 == 0 && c.f 24 8 % 65536 == 0 && c.f 16 8 + c.f 24 8 ≤ hbmBytes)
    (fun c s =>
      let out (T : Team) : Bool := match T.st with | .out _ => true | _ => false
      if s.teams.any fun t => out t.2 && s.vfOf t.2.space == c.f 8 1 then .done 3 0 s
      else .done 0 0 { s with pkg := { s.pkg with savePools := s.pkg.savePools.insert (c.f 8 1) (c.f 16 8, c.f 24 8) } }) s

/-- The blocks of a tier (R234). -/
def State.tierBlocks (s : State) (tier : Nat) : Nat :=
  (if tier = 0 then hbmBytes else sumOf s.pkg.cxl Prod.snd) / 65536

/-- R317, R296; the blocks now belong to the space (R8). -/
def execBlockPool (s : State) : Res :=
  adminOnce "BLOCK POOL" 0x08 (fun c => c.f 10 1 ≤ 1) (fun c s =>
    let tier := c.f 10 1
    let first := c.f 12 4
    let n := c.f 16 4
    if s.tierBlocks tier < first + n then .done 1 0 s
    else s.inSpace (c.f 8 2) fun _ =>
      let key := (if tier = 0 then 0 else tierOneKey) + first * blockBytes
      let s := s.zeroBytes key (n * blockBytes)
      let s := { s with owners := ownRun s.owners (key / 65536) n (c.f 8 2) }
      let add (x : Ctx) : Ctx :=
        let old := x.pool tier
        x.setPool tier ((old.filter (· < first)) ++ (List.range n).map (first + ·) ++ old.filter (first + n ≤ ·))
      .done 0 n { s with ctxs := s.ctxs.modify (c.f 8 2) add }) s

/-- R317. -/
def execPolicy (s : State) : Res :=
  adminOnce "POLICY" 0x0B (fun c => 1 ≤ c.f 10 1 && c.f 10 1 ≤ 8 && 2 ≤ c.f 11 1 && c.f 11 1 ≤ 16) (fun c s =>
    s.inSpace (c.f 8 2) fun _ =>
      .done 0 0 { s with ctxs := s.ctxs.modify (c.f 8 2) fun x => { x with policy := ⟨c.f 10 1, c.f 11 1, c.f 12 4⟩ } }) s

/-- R229: status 3 while a named die has a tail slot in use. -/
def execTailShare (s : State) : Res :=
  adminOnce "TAIL SHARE" 0x0C (fun c => c.f 9 1 ≤ 8) (fun c s =>
    let dies := (List.range 8).filter fun d => fld (c.f 8 1) d 1 == 1
    if (s.tails.map Prod.fst ++ s.gatheredTails).any fun t => dies.contains (t / 4096) then .done 3 0 s
    else .done 0 0 { s with pkg := { s.pkg with shares := dies.foldl (fun m d => SMap.put 0 m d (c.f 9 1)) s.pkg.shares } }) s

/-- R290: the banks are armed for one address space. -/
def execSnapArm (s : State) : Res :=
  adminOnce "SNAP ARM" 0x0D (fun c => c.f 10 1 ≤ 1) (fun c s =>
    s.inSpace (c.f 8 2) fun _ =>
      let arm := c.f 10 1 == 1
      let set (x : Nat × Ctx) : Nat × Ctx :=
        (x.1, if x.1 = c.f 8 2 then { x.2 with armed := arm, trace := BitVec.ofNat 64 (c.f 16 8) }
              else { x.2 with armed := x.2.armed && !arm })
      .done 0 0 { s with ctxs := List.map set s.ctxs }) s

/-! ### Sequences (R320) -/

/-- The record that an operation works on. -/
def ECmd.onRecord : ECmd → Option Dword
  | .gath _ _ _ rec _ _ _ _ _ => some rec
  | .sigf rec _ _ _ _ _ _ => some rec
  | .pagein rec _ _ => some rec
  | .kvrel rec _ _ => some rec
  | .kvapp rec _ _ => some rec
  | .kvflush rec => some rec
  | .rpub rec _ _ _ => some rec
  | _ => none

/-- Work on a record is under way: an engine operation, an instruction that the package scheduler answers, a DEMOTE (R320). -/
def State.recordBusy (s : State) (space rec : Nat) : Bool :=
  (s.eops.any fun o => o.2.space == space && o.2.running && o.2.cmd.onRecord == some (BitVec.ofNat 64 rec)) ||
    (s.teams.any fun t => t.2.space == space && t.2.groups.any fun g => g.2.ops.any fun o => match o.kind with
      | .view _ r _ | .kvalloc r _ _ => r == rec
      | _ => false) ||
    s.pkg.cmds.any fun c => c.began && c.code == 0x0A && c.f 8 2 == space && c.f 16 8 == rec

/-- R320: no new work from its start on; it completes once no step is open and no operation on the record runs. -/
def execSequenceRetire (s : State) : Res :=
  adminOnce "SEQUENCE RETIRE" 0x09 (fun c => c.f 16 8 % 256 == 0) (fun c s =>
    let space := c.f 8 2
    let rec' := c.f 16 8
    s.inSpace space fun _ =>
      match s.seqs.find? (seqKey space rec') with
      | none => .done 2 0 s
      | some q =>
        if !q.steps.isEmpty || s.recordBusy space rec' then .wait (s.modSeq space rec' fun q => { q with retiring := true })
        else
          let s := s.releaseTail space q
          .done 0 0 { s with seqs := s.seqs.erase (seqKey space rec') }) s

/-- What a DEMOTE has done (R320): it is over with a status, waits for the block's pins, or has moved a block. -/
inductive Demotion where
  | ended (status : Nat)
  | pinned
  | moved (old new : Nat)

/-- The move of R320; a record that is being retired takes no new one. -/
def demoteW (a : Agent) (fresh : Bool) (rec i : Nat) : Work Demotion := do
  let r ← if fresh then openRec a rec else recW a rec
  let e ← entryW a r i
  if e.1 ≠ 2 ∨ e.2.1 ≠ 0 then pure (.ended 3)
  else
    let s ← get
    match s.ctxs.find? a.space with
    | none => pure (.ended 2)
    | some x =>
      if SMap.getD x.pins (blockKey 0 e.2.2) 0 ≠ 0 then pure .pinned
      else match x.pool1.head? with
        | none => pure (.ended 5)
        | some b =>
          let src ← blockW 0 e.2.2
          let dst ← blockW 1 b
          setEntryW a r i 2 1 b
          modify fun s => ((s.readMem src blockBytes).copyBytes src dst blockBytes).modBlocks a.space fun c => (c.take 1 b 1).drop 0 e.2.2
          pure (.moved e.2.2 b)

/-- Go on with a DEMOTE; once the block has moved it waits until the old one is zeroed and back in the pool (R303). -/
def demoteStep (c : AdminCmd) (s : State) : Answer :=
  let space := c.f 8 2
  s.inSpace space fun x => match c.moved with
    | some (old, b) => if x.release.contains (blockKey 0 old) then .wait s else .done 0 b s
    | none =>
      if (s.seqs.find? (seqKey space (c.f 16 8))).isNone then .done 2 0 s
      else
        let a : Agent := ⟨space, 0, c.declined, false⟩
        match runWork s a (.admin c.num) (demoteW a (!c.began) (c.f 16 8) (c.f 24 4)) with
        | .parked _ s => .wait s
        | .failed _ _ s => .done 2 0 s
        | .done .pinned _ => .wait s
        | .done (.ended status) s => .done status 0 s
        | .done (.moved old b) s =>
          let note (y : AdminCmd) : AdminCmd := if y.num = c.num then { y with moved := some (old, b) } else y
          .more { s with pkg := { s.pkg with cmds := s.pkg.cmds.map note } }

/-- R320: the block's frame goes to tier 1 once no gather pins it. -/
def execDemote (s : State) : Res := adminOnce "DEMOTE" 0x0A (fun c => c.f 16 8 % 256 == 0) demoteStep s

/-! ### Teams (R280, R285, R286, R321) -/

/-- The launch that a command names. -/
def State.launchNamed (s : State) (space id : Nat) (go : Answer) : Answer :=
  match s.launches.find? id with
  | some L => if L.space = space then go else .done 2 0 s
  | none => .done 2 0 s

/-- Save the resident teams of a list; the flag says that one found no room. -/
def State.saveTeams (s : State) : List Nat → Nat × Bool × State
  | [] => (0, false, s)
  | t :: ts => match s.saveTeam t with
    | none =>
      let (n, _, s) := State.saveTeams s ts
      (n, true, s)
    | some s =>
      let (n, bad, s) := State.saveTeams s ts
      (n + 1, bad, s)

/-- R317, R321: status 5 where a save found no room. A team whose last work is over retires instead (R275, R313), and one that a fatal fault
ends saves nothing (R280). -/
def execPreEmpt (s : State) : Res :=
  adminOnce "PRE-EMPT" 0x0E anyOperands (fun c s =>
    s.inSpace (c.f 8 2) fun _ => s.launchNamed (c.f 8 2) (c.f 16 3) (
      let ts := (s.teams.filter fun t => t.2.launch == c.f 16 3 && t.2.resident && t.2.cause.isNone && !t.2.over).map Prod.fst
      let (n, bad, s) := s.saveTeams ts
      .done (if bad then 5 else 0) n s)) s

/-- Halt a team for a debugger (R278, R280): no faulting group, halt cause 0 in every group. -/
def State.debugHalt (s : State) (t : Nat) : State :=
  match s.teams.find? t with
  | none => s
  | some T =>
    let draw := s.free
    let skids (x : Nat × Group) : Nat × Group :=
      (x.1, { x.2 with skidLeft := Config.skid (draw + x.1) % 3, haltCause := 0, haltSkid := 0, sibling := true })
    State.modTeam { s with free := s.free + T.groups.length } t fun T =>
      { T with st := .halting 32, debug := true, faulting := none, groups := List.map skids T.groups }

/-- A debugger halts a team (R280), wherever it is: a running one as R278 halts it; one that halts, is HALTED or runs its handler stays so;
one that has not started, or is OUT, waits HALTED when it comes. -/
def State.debugStop (s : State) (t : Nat) : State :=
  match s.teams.find? t with
  | none => s
  | some T =>
    let freeze (T : Team) : Team := { T with groups := List.map (fun (g : Nat × Group) => (g.1, Group.freeze g.2)) T.groups }
    match T.st with
    | .running => s.debugHalt t
    | .out false => s.modTeam t fun T => { freeze T with st := .out true, debug := true, faulting := none }
    | .retired => s
    | .placed | .halting _ | .halted | .out true =>
      (s.modCore T.core fun c => { c with haltQ := setErase c.haltQ t }).modTeam t fun T => { T with debug := true }

/-- A debugger lets a team go on (R280): as RESUME does, or, where it was halted in a fault, the fault's halt goes on. -/
def State.debugGo (s : State) (t : Nat) : State :=
  match s.teams.find? t with
  | none => s
  | some T =>
    let free : State := s.modTeam t fun T => { T with debug := false }
    let thaw (T : Team) : Team :=
      { T with st := .out false, debug := false, groups := List.map (fun (g : Nat × Group) => (g.1, { Group.thaw g.2 with sibling := false })) T.groups }
    match T.st, T.faulting with
    | .halted, none => s.resumeTeam t
    | .out _, none => s.modTeam t thaw
    | .halted, some _ =>
      if (s.core T.core).handler = some t then free else free.modCore T.core fun c => { c with haltQ := c.haltQ ++ [t] }
    | _, _ => free

/-- Teams of a launch, without those that have ended or are ending (R280, R313). -/
def State.teamsOf (s : State) (id : Nat) (p : Team → Bool) : List Nat :=
  (s.teams.filter fun t => t.2.launch == id && t.2.st != .retired && t.2.cause.isNone && !t.2.over && p t.2).map Prod.fst

/-- A team is on its way to a debugger's halt. -/
def Team.stopping (T : Team) : Bool := T.debug && T.st.isHalting

/-- R280, R317: it completes once the teams are HALTED, or run again. -/
def execDebug (s : State) : Res :=
  let work (c : AdminCmd) (_ : Bool) (s : State) : Answer :=
    s.inSpace (c.f 8 2) fun _ => s.launchNamed (c.f 8 2) (c.f 16 3) (
      let id := c.f 16 3
      let halted := s.teamsOf id Team.debug
      if c.f 10 1 = 0 then
        let ts := s.teamsOf id fun T => !T.debug
        let s' := if c.began then s else ts.foldl State.debugStop s
        if (s'.teamsOf id Team.stopping).isEmpty then .done 0 (s'.teamsOf id Team.debug).length s' else .wait s'
      else if (s.teamsOf id Team.stopping).isEmpty then .done 0 halted.length (halted.foldl State.debugGo s)
      else .wait s)
  adminRow "DEBUG" 0x0F false (fun c => c.f 10 1 ≤ 1) work work s

/-! ### Firmware (R325, R326) -/

/-- The slot that the current boot did not run. -/
def Pkg.otherSlot (p : Pkg) : Nat := 1 - p.slot

/-- R325: the image is verified and its slot erased; then it is programmed, read back and verified. -/
def execFwWrite (s : State) : Res :=
  let start (c : AdminCmd) (_ : Bool) (s : State) : Answer :=
    let img := s.bytes (hostKey + c.f 8 8) (c.f 16 4)
    if verifyImage s.pkg.rootKey img (areaBytes - 256) s.pkg.fuses ≠ 1 then .done 4 0 s
    else .wait { s with pkg := { s.pkg.erase (slotBytes * s.pkg.otherSlot) areaBytes with image := img } }
  let goOn (_ : AdminCmd) (fails : Bool) (s : State) : Answer :=
    let k := s.pkg.otherSlot
    let p := { s.pkg.program (slotBytes * k) (s.pkg.image.take (256 + bodyLength s.pkg.image)) with image := [] }
    if fails then .done 4 0 { s with pkg := { p with badSlots := setInsert p.badSlots k } }
    else .done 0 k { s with pkg := { p with badSlots := setErase p.badSlots k } }
  adminRow "FW WRITE" 0x10 true anyOperands start goOn s

/-- R325: the named slot is verified and the target's sector erased; then the marker is programmed, its commit word last. -/
def execFwActivate (s : State) : Res :=
  let start (c : AdminCmd) (fails : Bool) (s : State) : Answer :=
    let p := s.pkg
    if fails || p.verifySlot [] (c.f 8 1) ≠ 1 then .done 4 0 s
    else if (p.bestMarker.map Marker.seq).getD 0 + 1 ≥ 0xFFFFFFFF then .done 5 0 s
    else .wait { s with pkg := p.erase (slotBytes * p.markerTarget + areaBytes) 65536 }
  let goOn (c : AdminCmd) (_ : Bool) (s : State) : Answer :=
    let p := s.pkg
    let seq := (p.bestMarker.map Marker.seq).getD 0 + 1
    let at_ := slotBytes * p.markerTarget + areaBytes
    .done 0 seq { s with pkg := (p.program at_ (markerHead seq (c.f 8 1))).program (at_ + 60) (natBytes 4 0x5A5A5A5A) }
  adminRow "FW ACTIVATE" 0x11 true (fun c => c.f 8 1 ≤ 1) start goOn s

/-- R326. -/
def execSvnCommit (s : State) : Res :=
  adminOnce "SVN COMMIT" 0x12 anyOperands (fun _ s =>
    let n := max s.pkg.fuses s.pkg.svn
    .done 0 n { s with pkg := { s.pkg with fuses := n } }) s

/-! ### Identity (R330, R332) -/

/-- R332. -/
def execAttest (s : State) : Res :=
  let work (c : AdminCmd) (_ : Bool) (s : State) : Answer :=
    .done 0 0 (s.store (hostKey + c.f 8 8) (s.report ((c.bytes.drop 16).take 32)))
  adminRow "ATTEST" 0x13 true (fun c => c.f 8 8 % 256 == 0) work work s

/-- R330: the certificate, zero-padded to 2048 bytes. -/
def execIdentity (s : State) : Res :=
  let work (c : AdminCmd) (_ : Bool) (s : State) : Answer :=
    let cert := Config.certificate.take 2048
    .done 0 cert.length (s.store (hostKey + c.f 8 8) (cert ++ List.replicate (2048 - cert.length) 0))
  adminRow "IDENTITY" 0x14 true anyOperands work work s

end Sys2Proof.Machine
end

