-- ==== Sys2Proof/Machine/FabLink.lean ====
section
/-! DEFINITION. Links of the fabric: flits, packets as they arrive, training (R337 to R340, R352, R353). -/
namespace Sys2Proof.Machine

/-! ### Packets as they arrive (R339) -/

/-- Field of n bytes at o. -/
def bytesAt (bs : List Byte) (o n : Nat) : Nat := bytesNat ((bs.drop o).take n)

/-- How many bytes a packet takes, from its header (R339). -/
def packetLength (bs : List Byte) : Nat :=
  let b := bytesAt bs 0 1
  32 + if fld b 4 1 = 1 then 0 else 4 * fld (bytesAt bs 1 1) 0 7 + 32 * fld b 6 1

/-- The bits of an index trailer that are zero (R342): of an atomic's or reduction's, bits [7:6] of each entry and the entries from the count on. -/
def trailerReserved (type count : Nat) (bs : List Byte) : Bool :=
  (type == 4 || type == 6 || type == 10) && (bs.zipIdx).any fun b => 64 ≤ b.1.toNat || count ≤ b.2 && b.1 != 0

/-- The packet that bytes hold. -/
def parsePacket (bs : List Byte) : Packet :=
  let f := bytesAt bs
  let n := fld (f 1 1) 0 7
  let trimmed := fld (f 0 1) 4 1 == 1
  let trailer := fld (f 0 1) 6 1 == 1
  { type := BitVec.ofNat 4 (f 0 1)
    trimmed := trimmed
    hp := fld (f 0 1) 5 1 == 1
    trailer := trailer
    length := BitVec.ofNat 7 n
    target := BitVec.ofNat 12 (f 2 2)
    mc := fld (f 2 2) 12 1 == 1
    source := BitVec.ofNat 12 (f 4 2)
    seq := BitVec.ofNat 16 (f 6 2)
    prior := BitVec.ofNat 16 (f 8 2)
    plane := BitVec.ofNat 5 (f 10 1)
    pv := fld (f 10 1) 5 1 == 1
    status := BitVec.ofNat 4 (f 11 1)
    epoch := BitVec.ofNat 4 (f 11 1 / 16)
    domain := BitVec.ofNat 16 (f 12 2)
    lowack := BitVec.ofNat 16 (f 14 2)
    line := BitVec.ofNat 64 (f 16 8)
    mask := BitVec.ofNat 64 (f 24 8)
    payload := if trimmed then [] else (List.range n).map fun i => BitVec.ofNat 32 (f (32 + 4 * i) 4)
    index := if trailer && !trimmed then (bs.drop (32 + 4 * n)).take 32 else []
    reserved := trailer && !trimmed && trailerReserved (fld (f 0 1) 0 4) (fld (f 24 8) 8 6) ((bs.drop (32 + 4 * n)).take 32) ||
      fld (f 0 1) 7 1 != 0 || fld (f 1 1) 7 1 != 0 || fld (f 2 2) 13 3 != 0 || fld (f 4 2) 12 4 != 0 || fld (f 10 1) 6 2 != 0 ||
      fld (f 16 8) 0 8 != 0 || fld (f 16 8) 43 21 != 0 }

/-- The bits of the mask field that its type leaves zero (R342). -/
def maskReserved (type : Nat) : Dword := match type with
  | 3 | 7 | 8 => 0xFFFFFFFFFFFFFFFF
  | 4 | 6 | 10 => 0xFFFFFFFFFFFFC0E0
  | 5 => 0xFFFFFFFFFFFFC0FF
  | 11 => 0xFFFF000000000000
  | 12 | 13 => 0xFFFFFFFC00000000
  | _ => 0

/-- A packet that a receiver drops and counts (R340, R342). -/
def packetReserved (p : Packet) : Bool :=
  p.reserved || 14 ≤ p.type.toNat || p.mask &&& maskReserved p.type.toNat != 0 ||
    p.type == 11 && p.payload.any fun w => w >>> 16 != 0

/-- The row of the table that a packet's arrival is, where it is one (R340, R346). -/
def packetRow (p : Packet) : Option Instr :=
  if packetReserved p then some .reservedPacketType
  else if p.trimmed then some .trimmedHeader
  else match p.type.toNat with
    | 0 => some .read
    | 1 => some .readResponse
    | 2 => some .write
    | 3 => some .ack
    | 4 => some .atomic
    | 5 => some .atomicResponse
    | 6 => some .reduction
    | 7 => some .negative
    | 8 => some .resendRequest
    | 9 => some .multicastWrite
    | 10 => some .multicastReduction
    | 11 => some .aggregatedAck
    | 13 => some .collectiveResult
    | _ => none

/-! ### Flits (R337, R338) -/

def State.port (s : State) (i : Nat) : Port := s.fab.ports.getD i Port.reset

/-- The trailer of a flit is whole: its CRC covers the data and its own low word (R337). -/
def flitOk (data : List Byte) (trailer : Dword) : Bool :=
  data.length == 64 && (hiWord trailer).toNat == crc32 (data ++ wordBytes (loWord trailer)) && fld trailer.toNat 24 8 == 0

/-- Take the packets that have come in full: each is what happens next. -/
def State.deliverPackets (s : State) (i : Nat) : State :=
  let p := s.port i
  let n := packetLength p.rxData
  if p.rxData = [] ∨ p.rxData.length < n then s
  else
    let x := parsePacket (p.rxData.take n)
    let s := s.setPort i { p with rxData := [] }
    match packetRow x with
    | none => s
    | some row => { s with agenda := .event row (.portPacket i x) :: s.agenda }

/-- R338: a flit with a wrong CRC or out of sequence is discarded, with every later one until the sender has replayed it. -/
def execFlitReceive (s : State) : Res :=
  match s.ev with
  | .flit i data trailer =>
    let p := s.port i
    match p.st with
    | .up =>
      if !flitOk data trailer || fld trailer.toNat 0 12 != p.rxSeq then .next (s.setPort i { p with discarding := true })
      else
        let p := { p with
          rxSeq := (p.rxSeq + 1) % 4096, discarding := false, rxData := p.rxData ++ data
          acked := (fld trailer.toNat 12 12 + 1) % 4096 }
        .next ((s.setPort i (p.flush p.backlog.length)).deliverPackets i)
    | _ => .next s
  | _ => notNow "FLIT_RECEIVE"

/-- R340: dropped, counted, and nothing sent back. -/
def execReservedPacketType (s : State) : Res :=
  match s.ev with
  | .portPacket i x =>
    if !packetReserved x then notNow "RESERVED_PACKET_TYPE"
    else .next (s.setPort i { s.port i with errors := (s.port i).errors + 1 })
  | _ => notNow "RESERVED_PACKET_TYPE"

/-! ### Training (R352, R353) -/

/-- Records match when width, lane map and speed are equal, and no code is reserved. -/
def recordsMatch (a b : LinkRecord) : Bool :=
  a.width == b.width && a.laneMap == b.laneMap && a.speed == b.speed && a.width != 0 && a.speed != 3

/-- Lanes of a width code. -/
def widthLanes (w : BitVec 2) : Nat := match w.toNat with
  | 3 => 8 | 2 => 4 | 1 => 2 | _ => 0

/-- The common configuration of the kept records (R353). -/
def commonRecord (rs : List LinkRecord) : Option LinkRecord :=
  let w := rs.foldl (fun w r => if r.width.toNat < w.toNat then r.width else w) (3 : BitVec 2)
  let v := rs.foldl (fun v r => if v.toNat < r.speed.toNat then r.speed else v) (0 : BitVec 2)
  let all := rs.foldl (fun m r => m &&& r.laneMap) (0xFF : Byte)
  let lanes := (List.range 8).filter fun i => all.getLsbD i
  let n := widthLanes w
  if n = 0 ∨ v = 3 ∨ lanes.length < n then none
  else some ⟨w, (lanes.take n).foldl (fun m i => m ||| (1#8 <<< i)) 0, v, 3⟩

/-- Start training: what was under way on the link is gone. -/
def Port.train (p : Port) (attempt : Nat) (final : Bool) : Port :=
  { p with st := .training attempt final, rxSeq := 0, discarding := false, rxData := [], txSeq := 0, acked := 0, replay := [], backlog := [] }

/-- FALLBACK (R353): train once more to the common configuration, or fail. -/
def Port.fallBack (p : Port) : Port :=
  match commonRecord (p.sent ++ p.got) with
  | some r => { p with mine := r }.train 3 true
  | none => { p with st := .failed }

/-- A configuration record as it travels (R352). -/
def LinkRecord.bytes (r : LinkRecord) : List Byte :=
  natBytes 1 r.width.toNat ++ [r.laneMap] ++ natBytes 1 r.speed.toNat ++ natBytes 1 r.attempt.toNat ++ List.replicate 60 0

/-- R352, R353: each end's record is the link's first flit; the records of both ends are compared. -/
def execConfigurationRecord (s : State) : Res :=
  match s.ev with
  | .record i mine r =>
    let p := s.port i
    match p.st with
    | .training a final =>
      let mine : LinkRecord := { (if final then p.mine else mine) with attempt := BitVec.ofNat 2 a }
      let p := { p with sent := p.sent ++ [mine], got := p.got ++ [r], mine := mine }.put (LinkRecord.bytes mine)
      let p := { p with rxSeq := (p.rxSeq + 1) % 4096 }
      if 18 ≤ i then notNow "CONFIGURATION_RECORD"
      else if recordsMatch mine r then .next (s.setPort i { p with st := .up })
      else if final then .next (s.setPort i { p with st := .failed })
      else if a < 3 then .next (s.setPort i { p with st := .hold a })
      else .next (s.setPort i { p with st := .fallback })
    | _ => notNow "CONFIGURATION_RECORD"
  | _ => notNow "CONFIGURATION_RECORD"

/-- R353. -/
def execHoldEnd (s : State) : Res :=
  match s.ev with
  | .index i =>
    match (s.port i).st with
    | .hold a => .next (s.setPort i ((s.port i).train (a + 1) false))
    | _ => notNow "HOLD_END"
  | _ => notNow "HOLD_END"

/-- R353: DOWN trains, FAILED goes DOWN; the records since the port last left UP stay (R352). -/
def execPortReenable (s : State) : Res :=
  match s.ev with
  | .index i =>
    let p := s.port i
    if 18 ≤ i then notNow "PORT_REENABLE"
    else match p.st with
      | .down => .next (s.setPort i (p.train 0 false))
      | .failed => .next (s.setPort i { p with st := .down })
      | _ => notNow "PORT_REENABLE"
  | _ => notNow "PORT_REENABLE"

/-- Ports in FALLBACK go on (R353). -/
def State.settleLinks (s : State) : State :=
  { s with fab := { s.fab with ports := List.map (fun (p : Nat × Port) =>
      (p.1, if p.2.st = .fallback then p.2.fallBack else p.2)) s.fab.ports } }

end Sys2Proof.Machine
end

