-- ==== Sys2Proof/Machine/FabTarget.lean ====
section
/-! DEFINITION. The device as a target of the fabric (R344 to R346, R349): windows, checks, performing, answers. -/
namespace Sys2Proof.Machine

/-! ### Windows (R344, R345) -/

/-- a is below b. -/
def seqBelow (a b : Nat) : Bool :=
  let d := (b + 65536 - a) % 65536
  1 ≤ d && d ≤ 32767

/-- The key of the window of a request. -/
def windowKey (x : Packet) : Nat := if x.mc then 4096 * (x.target.toNat + 1) + x.source.toNat else x.source.toNat

def Window.fresh (epoch low : Nat) : Window := ⟨epoch, low, [], [], [], [], []⟩

/-- Below the window, or performed. -/
def Window.done (w : Window) (seq : Nat) : Bool := seqBelow seq w.low || w.performed.contains seq

/-- The source has told a lowest unacknowledged seq: what lies below is forgotten. -/
def Window.advance (w : Window) (low : Nat) : Window :=
  if seqBelow w.low low then
    let keep (n : Nat) : Bool := !seqBelow n low
    { w with
      low := low, performed := w.performed.filter keep, kept := w.kept.filter fun p => keep p.seq.toNat
      held := w.held.filter fun p => keep p.seq.toNat, waits := w.waits.filter fun x => keep x.1, declined := w.declined.filter keep }
  else w

def State.setWindow (s : State) (k : Nat) (w : Window) : State :=
  { s with fab := { s.fab with windows := s.fab.windows.insert k w } }

/-- A request with another epoch than the receiver knows of its source, or the first of that source: what is held for the source is dropped,
its windows towards groups too (R344). -/
def State.newEpoch (s : State) (x : Packet) : State :=
  let old (w : Nat × Window) : Bool := w.1 % 4096 == x.source.toNat && w.2.epoch != x.epoch.toNat
  if s.fab.windows.any old then { s with fab := { s.fab with windows := s.fab.windows.filter fun w => !old w } } else s

/-- The window of a request, opened anew on another epoch or none (R344), and advanced. -/
def State.windowFor (s : State) (x : Packet) : Window :=
  let low := x.lowack.toNat
  match s.fab.windows.find? (windowKey x) with
  | some w => if w.epoch = x.epoch.toNat then w.advance low else Window.fresh x.epoch.toNat low
  | none => Window.fresh x.epoch.toNat low

/-! ### Answers (R339 to R342, R349) -/

/-- An answer to a request: it copies what identifies the request; types 3, 7 and 8 carry a pacing hint (log entry 12), and a resend request
has high priority (R346). -/
def State.answer (s : State) (x : Packet) (type status : Nat) (mask : Dword) (payload : List Word) : Packet × State :=
  let (hint, s) := if type = 3 ∨ type = 7 ∨ type = 8 then s.draw 65536 else (0, s)
  ({ Packet.blank with
    type := BitVec.ofNat 4 type, hp := type == 8, length := BitVec.ofNat 7 payload.length, target := if x.mc then x.target else x.source, mc := x.mc
    source := BitVec.ofNat 12 s.pkg.peer, seq := x.seq, plane := x.plane, status := BitVec.ofNat 4 status, epoch := x.epoch
    domain := x.domain, lowack := BitVec.ofNat 16 hint, line := x.line, mask := mask, payload := payload }, s)

/-- Send an answer: a member's goes back on the plane its copy came on, or not at all where that is not UP (R354): then the switch answers for
it (R349). -/
def State.sendAnswer (s : State) (p : Packet) : State :=
  if !p.mc then (s.emit p).2 else if s.upPlanes.contains p.plane.toNat then s.emitOn p.plane.toNat p else s

/-- A duplicate receives its kept answer, else an acknowledgement (R345), on the plane it came on. -/
def State.answerAgain (s : State) (w : Window) (x : Packet) : State :=
  match w.kept.find? fun p => p.seq == x.seq with
  | some p => s.sendAnswer { p with plane := x.plane }
  | none =>
    let (p, s) := s.answer x 3 0 0 []
    s.sendAnswer p

/-! ### Checks (R334, R335, R345) -/

/-- What a request does at the target: 0 reads, 1 writes, 2 applies operations. -/
def packetDeed (x : Packet) : Nat := match x.type.toNat with
  | 0 => 0
  | 2 | 9 => 1
  | _ => 2

/-- The leaf entry that maps an address, if the walk ends at one. -/
def State.leafAt (s : State) (space va : Nat) : Option Nat :=
  match s.ctxs.find? space with
  | none => none
  | some c => match tableOf (c.roots.getD (fld va 55 2) 0) with
    | none => none
    | some t1 => match tableOf (s.nat (t1 + 8 * fld va 42 13) 8) with
      | none => none
      | some t2 =>
        let e := s.nat (t2 + 8 * fld va 29 13) 8
        if fld e 1 1 = 1 then some e
        else (tableOf e).map fun t3 => s.nat (t3 + 8 * fld va 16 13) 8

/-- The checks of R345 in their order: the key of the line, or the status of the first that fails, or a miss parked. -/
inductive Checked where
  | ok (key : Nat)
  | bad (status : Nat)
  | parked (token : Nat)

def State.checkPacket (s : State) (x : Packet) (declined : Bool) : Checked × State :=
  match List.find? (fun (e : Nat × Export) => e.2.valid && e.2.domain == x.domain.toNat) s.pkg.exports with
  | none => (.bad 5, s)
  | some (_, e) =>
    if e.revoked then (.bad 2, s)
    else if e.size ≤ x.line.toNat then (.bad 1, s)
    else if e.ro && packetDeed x != 0 then (.bad 3, s)
    else
      let va := e.base + x.line.toNat
      match s.reachAs declined e.space va (packetDeed x) false 0 (.packet (windowKey x) x.seq.toNat) with
      | (.hit k, s) => if (s.leafAt e.space va).any fun l => fld l 52 4 == 3 then (.ok k, s) else (.bad 8, s)
      | (.fault _, s) => (.bad 8, s)
      | (.parked tok, s) => (.parked tok, s)

/-! ### Performing (R342, R345, R253) -/

/-- The words of a line whose mask bits are set. -/
def maskWords (m : Dword) : List Nat := (List.range 64).filter fun i => m.getLsbD i

/-- The bytes that a write packet writes to a line at a key. -/
def writtenBytes (x : Packet) (key : Nat) : List (Nat × Byte) :=
  ((maskWords x.mask).zip x.payload).flatMap fun w =>
    ((wordBytes w.2).zipIdx.filter fun b =>
      let o := 4 * w.1 + b.2
      !x.trailer || (x.index.getD (o / 8) 0).getLsbD (o % 8)).map fun b => (key + 4 * w.1 + b.2, b.1)

/-- Apply the entries of an atomic or reduction in order: old values, and whether some location was poisoned, which is left alone. -/
def State.applyEntries (s : State) (x : Packet) (key : Nat) : Nat → List Word × Bool × State
  | 0 => ([], false, s)
  | n + 1 =>
    let (olds, bad, s) := State.applyEntries s x key n
    let a := key + 4 * ((x.index.getD n 0).toNat % 64)
    let old := bytesWord (s.bytes a 4)
    if s.poisoned a 4 then (olds ++ [old], true, s)
    else (olds ++ [old], bad, s.store a (wordBytes (atomicNew (fld x.mask.toNat 0 5) old (x.payload.getD (2 * n) 0) (x.payload.getD (2 * n + 1) 0))))

/-- Perform a request that has passed its checks: its answer. -/
def State.performPacket (s : State) (x : Packet) (key : Nat) : Packet × State :=
  match packetDeed x with
  | 0 =>
    let ws := maskWords x.mask
    let bad := ws.filter fun i => s.poisoned (key + 4 * i) 4
    let data := ws.map fun i => bytesWord (s.bytes (key + 4 * i) 4)
    if bad = [] then s.answer x 1 0 x.mask data
    else s.answer x 1 4 (bad.foldl (fun (m : Dword) i => m ||| (1#64 <<< i)) 0) data
  | 1 => (s.storeAt (writtenBytes x key)).answer x 3 0 0 []
  | _ =>
    let n := fld x.mask.toNat 8 6
    let (olds, bad, s) := s.applyEntries x key n
    let st := if bad then 4 else 0
    if x.type = 4 then s.answer x 5 st (BitVec.ofNat 64 (256 * n)) olds else s.answer x 3 st 0 []

/-- The first of the held requests whose turn has come (R345): one with a prior once that is performed, one without in the order of arrival;
`behind` says that such a one is held before it. -/
def Window.next (w : Window) : Bool → List Packet → Option Packet
  | _, [] => none
  | behind, x :: xs =>
    if (w.waits.find? x.seq.toNat).isNone && (if x.pv then w.done x.prior.toNat else !behind) then some x
    else Window.next w (behind || !x.pv) xs

/-- A held request whose turn has come. -/
def Window.ready (w : Window) : Option Packet := w.next false w.held

/-- Perform what is held in a window and may be performed, in the order of arrival. -/
def State.tryHeld : Nat → State → Nat → State
  | 0, s, _ => s
  | n + 1, s, k =>
    match s.fab.windows.find? k with
    | none => s
    | some w => match w.ready with
      | none => s
      | some x =>
        let seq := x.seq.toNat
        match s.checkPacket x (w.declined.contains seq) with
        | (.parked tok, s) => State.tryHeld n (s.setWindow k { w with waits := w.waits.insert seq tok }) k
        | (c, s) =>
          let (p, s) := match c with
            | .ok key => s.performPacket x key
            | .bad st => s.answer x 7 st 0 []
            | .parked _ => (x, s)
          let w := { w with
            performed := setInsert w.performed seq, kept := w.kept ++ [p], held := w.held.filter fun y => y.seq != x.seq
            declined := setErase w.declined seq }
          State.tryHeld n ((s.setWindow k w).sendAnswer p) k

/-- Every window goes on after a reply of the fault service. -/
def State.settleWindows (s : State) : State :=
  s.fab.windows.foldl (fun s w => if w.2.held.isEmpty then s else s.tryHeld (w.2.held.length + 1) w.1) s

/-- A request arrives (R345). -/
def State.receive (s : State) (x : Packet) : State :=
  let k := windowKey x
  let s := s.newEpoch x
  let w := s.windowFor x
  if w.done x.seq.toNat then (s.setWindow k w).answerAgain w x
  else if w.held.any fun y => y.seq == x.seq then s.setWindow k w
  else (s.setWindow k { w with held := w.held ++ [x] }).tryHeld (w.held.length + 2) k

/-- A packet that this device may receive now: its port is UP, and it names this device, or a group. -/
def State.arrives (s : State) (i : Nat) (x : Packet) : Bool :=
  (s.port i).st == .up && !packetReserved x && (x.mc || x.target.toNat == s.pkg.peer)

/-- A request of one type arrives. -/
def requestRow (name : String) (type : Nat) (mc : Bool) (s : State) : Res :=
  match s.ev with
  | .portPacket i x =>
    if x.type.toNat ≠ type ∨ x.trimmed ∨ x.mc ≠ mc ∨ !s.arrives i x then notNow name else .next (s.receive x)
  | _ => notNow name

/-- R345. -/
def execRead (s : State) : Res := requestRow "READ" 0 false s
/-- R345. -/
def execWrite (s : State) : Res := requestRow "WRITE" 2 false s
/-- R345, R147. -/
def execAtomic (s : State) : Res := requestRow "ATOMIC" 4 false s
/-- R345, R147. -/
def execReduction (s : State) : Res := requestRow "REDUCTION" 6 false s
/-- R349. -/
def execMulticastWrite (s : State) : Res := requestRow "MULTICAST_WRITE" 9 true s
/-- R349. -/
def execMulticastReduction (s : State) : Res := requestRow "MULTICAST_REDUCTION" 10 true s

/-- R346: a resend request, or the answer that a duplicate gets. -/
def execTrimmedHeader (s : State) : Res :=
  match s.ev with
  | .portPacket i x =>
    if !x.trimmed || !([0, 2, 4, 6].contains x.type.toNat) || x.mc || !s.arrives i x then notNow "TRIMMED_HEADER"
    else
      let s := s.newEpoch x
      let w := s.windowFor x
      let s := s.setWindow (windowKey x) w
      if w.done x.seq.toNat then .next (s.answerAgain w x)
      else
        let (p, s) := s.answer x 8 0 0 []
        .next (s.sendAnswer p)
  | _ => notNow "TRIMMED_HEADER"

end Sys2Proof.Machine
end

