-- ==== Sys2Proof/Machine/FabSource.lean ====
section
/-! DEFINITION. The device as a source of the fabric (R341, R343, R347 to R351, R353, R354, R367): answers, resends, timeouts, event records,
collective results. -/
namespace Sys2Proof.Machine

/-! ### Runs (R344) -/

/-- The packet of a run with a seq, not acknowledged and not yet ended. -/
def State.unacked? (s : State) (key seq : Nat) : Option Unacked :=
  (s.fab.runs.find? key).bind fun r => r.flight.find? fun u => u.pkt.seq.toNat == seq

def State.modUnacked (s : State) (key seq : Nat) (f : Unacked → Unacked) : State :=
  { s with fab := { s.fab with runs := s.fab.runs.modify key fun r =>
      { r with flight := r.flight.map fun u => if u.pkt.seq.toNat = seq then f u else u } } }

/-- Send what waits while fewer than 1024 are unacknowledged. -/
def State.pump : Nat → State → Nat → State
  | 0, s, _ => s
  | n + 1, s, key =>
    match s.fab.runs.find? key with
    | none => s
    | some r => match r.waiting with
      | [] => s
      | u :: us =>
        if 1024 ≤ r.flight.length then s
        else State.pump n ((s.setRun key { r with waiting := us }).sendPacket u.pkt u.origin u.ctx) key

/-- A packet is done with. -/
def State.dropUnacked (s : State) (key seq : Nat) : State :=
  match s.fab.runs.find? key with
  | none => s
  | some r => (s.setRun key { r with flight := r.flight.filter fun u => u.pkt.seq.toNat != seq }).pump (r.waiting.length + 1) key

/-! ### What an end does at its origin -/

/-- The words of a line that a read response brings, by word index (R342). -/
def lineWords (request answer : Packet) : SMap Word := (maskWords request.mask).zip answer.payload

/-- n bytes of a line from a byte offset. -/
def lineSlice (ws : SMap Word) (off n : Nat) : List Byte :=
  (List.range n).map fun i => (wordBytes (ws.getD ((off + i) / 4) 0)).getD ((off + i) % 4) 0

/-- Bytes of a slice that lie in a word the answer calls poisoned. -/
def slicePoison (answer : Packet) (off n : Nat) : List Nat :=
  if answer.status = 4 then (List.range n).filter fun i => answer.mask.getLsbD ((off + i) / 4) else []

/-- A lane of a read takes its words, those that the answer calls poisoned with their poison (R137, R341). -/
def LOp.giveLine (o : LOp) (k : Nat) (u answer : Packet) : LOp :=
  match o.kind, o.accs.find? fun a => a.lane == k with
  | .load size signed _, some a =>
    let off := a.ea.toNat % 256
    let bad := slicePoison answer off size
    ((loadWords size signed (lineSlice (lineWords u answer) off size)).zipIdx).foldl (fun (o : LOp) w =>
      o.giveFrom w.2 k [w.1] (bad.any fun i => i / 4 == w.2)) (o.dropLane k)
  | _, _ => o.dropLane k

/-- A lane's fault after the fabric's answer: its address is the lane's (R282) unless another is given. -/
def LOp.faultFab (o : LOp) (k : Nat) (cause : Cause) (addr : Option Dword) : LOp :=
  match o.accs.find? fun a => a.lane == k with
  | some a => o.faultLane k cause (addr.getD a.ea)
  | none => o

/-- An answer's status is one that gives FABRIC at the source (R341), or it is a negative response without poison. -/
def Packet.refuses (p : Packet) : Bool := p.status ≠ 4 && (p.status ≠ 0 || p.type == 7)

/-- The lanes of a packet end. -/
def State.endLanes (s : State) (u : Unacked) (t g id : Nat) (lanes : List Nat) (e : FabEnd) : State :=
  s.modOp t g id fun o =>
    match e with
    | .answer p => if Packet.refuses p then lanes.foldl (fun o k => o.faultFab k .fabric none) o else match p.type.toNat with
      | 1 => lanes.foldl (fun o k => o.giveLine k u.pkt p) o
      | 5 =>
        if p.status = 4 then lanes.foldl (fun o k => o.faultFab k .ecc none) o
        else (lanes.zipIdx).foldl (fun o k => (o.dropLane k.1).giveLane k.1 [p.payload.getD k.2 0] false) o
      | 3 => lanes.foldl (fun o k => if p.status = 4 then o.faultFab k .ecc none else o.dropLane k) o
      | _ => lanes.foldl (fun o k => o.faultFab k .ecc none) o
    | .status _ => lanes.foldl (fun o k => o.faultFab k .fabric none) o
    | .group lost => lanes.foldl (fun o k => if lost = 0 ∧ u.negatives = [] then o.dropLane k else o.faultFab k .fabric none) o

/-- The address in the fabric windows of a packet's line (R134). -/
def windowAddr (p : Packet) : Nat := (if p.mc then 3 else 2) * 2 ^ 55 + p.target.toNat * 2 ^ 43 + p.line.toNat

/-- A failure of an engine operation by an answer: a CPYF stops at the step it had sent (R185); of FABRIC failures the lowest address
stays (R188). -/
def EOp.failing (o : EOp) (cause : Cause) (addr : Nat) : EOp :=
  match o.failure with
  | none => { o with failure := some (cause, addr), prog := match o.cmd with | .cpy _ _ _ _ _ => o.prog - 1 | _ => o.prog }
  | some (c, a) => if c = .fabric ∧ cause = .fabric then { o with failure := some (c, min a addr) } else o

/-- Where the step of a copy that is under way writes (R185). -/
def EOp.stepDst (o : EOp) : Option Nat := match o.cmd with
  | .cpy src dst len ls _ =>
    let x := copyStep src dst len ls (o.prog - 1)
    some (x.dst + x.off)
  | _ => none

/-- Write what a read of CPYF brought, its poison with it (R366). -/
def bringW (a : Agent) (dest : Nat) (bs : List Byte) (bad : List Nat) : Work Unit := do
  let ks ← keysW a dest bs.length accEngineWrite
  modify fun s => (s.putParts ks bs).taintAt ks bad

/-! ### Event records (R350, R367) -/

/-- The entries of a packet's records: the members never counted as one entry of peer 0, then ascending peers. -/
def negativeEntries (negs : List (Nat × Nat)) (lost : Nat) : List Word :=
  let sorted := negs.foldl (fun l x => (l.filter fun y => y.1 ≤ x.1) ++ x :: l.filter fun y => x.1 < y.1) []
  (if lost = 0 then [] else [BitVec.ofNat 32 (6 * 4096 + lost * 65536)]) ++ sorted.map fun x => BitVec.ofNat 32 (x.1 + x.2 * 4096)

/-- Write records of up to 8 entries, each in full before the index advances. -/
def eventsW (a : Agent) (x : FabCtx) (group origin future line pos neg : Nat) : Nat → List Word → Work Unit
  | 0, _ => pure ()
  | n + 1, es => do
    if es = [] then pure ()
    else
      let k ← natW a x.index.toNat 4
      let part := es.take 8
      recordW a (x.events.toNat + 64 * (k % 64)) x.index.toNat k
        (natBytes 4 2 ++ natBytes 4 (group + part.length * 4096 + origin * 2 ^ 20) ++ natBytes 8 future ++ natBytes 8 line ++ natBytes 4 pos ++
          natBytes 4 neg ++ part.flatMap wordBytes ++ List.replicate (32 - 4 * part.length) 0)
      eventsW a x group origin future line pos neg n (es.drop 8)

/-- The records of a multicast packet that ends with negatives. -/
def packetEventsW (a : Agent) (s : State) (u : Unacked) (lost : Nat) : Work Unit :=
  match s.fab.ctxs.find? u.ctx with
  | none => pure ()
  | some x =>
    let es := negativeEntries u.negatives lost
    let (origin, fut) := match u.origin with
      | .engine c n _ _ _ => (0, (future c n).toNat)
      | .lanes t g id _ => (1, (((s.group? t g).bind fun G => G.op? id).map fun o => o.pc.toNat).getD 0)
    eventsW a x u.pkt.target.toNat origin fut u.pkt.line.toNat u.positive (u.negatives.length + lost) (es.length + 1) es

/-! ### Ending a packet -/

/-- The end waits for the fault service. -/
def State.endLater (s : State) (key seq : Nat) (e : FabEnd) (tok : Nat) : State :=
  s.modUnacked key seq fun u => { u with ended := some e, wait := some tok }

/-- Count an answer of an engine operation. -/
def State.countBack (s : State) (c n : Nat) (f : EOp → EOp) : State := s.modEop c n fun o => f { o with back := o.back + 1 }

/-- A packet ends for its source (R341, R347, R349 to R351): its origin learns it, after the event records of a multicast packet with
negatives; a miss on the way waits. -/
def State.endPacket (s : State) (key seq : Nat) (e : FabEnd) : State :=
  match s.unacked? key seq with
  | none => s
  | some u =>
    let lost := match e with | .group n => n | _ => 0
    let negative : Bool := match e with | .group _ => lost != 0 || !u.negatives.isEmpty | _ => false
    let space := ((s.ectxs.find? u.ctx).map ECtx.space).getD 0
    let a : Agent := ⟨space, 0, u.declined, false⟩
    -- an operation that could not write a record writes no later one (R367)
    let barred : Bool := match u.origin with
      | .engine c n _ _ _ => (s.eop? c n).any EOp.barred
      | .lanes t g id _ => ((s.group? t g).bind fun G => G.op? id).any LOp.barred
    let recorded := if negative && !barred then runWork s a (.run key seq) (packetEventsW a s u lost) else .done () s
    match recorded with
    | .parked tok s => s.endLater key seq e tok
    | .failed cause addr s =>
      let s := match u.origin with
        | .lanes t g id lanes => s.modOp t g id fun o =>
          lanes.foldl (fun o k => o.faultFab k cause (some (BitVec.ofNat 64 addr))) { o with barred := true }
        | .engine c n _ _ _ => s.countBack c n fun o => { o with failure := some (cause, addr), barred := true }
      s.dropUnacked key seq
    | .done _ s =>
      match u.origin with
      | .lanes t g id lanes => (s.endLanes u t g id lanes e).dropUnacked key seq
      | .engine c n dest off len =>
        match e with
        | .answer p =>
          if p.type = 1 ∧ (Packet.refuses p) = false then
            match s.eop? c n with
            | none => s.dropUnacked key seq
            | some o =>
              -- a failed operation writes nothing more (R156)
              if o.failure.isSome then (s.countBack c n id).dropUnacked key seq else
              let a : Agent := ⟨o.space, o.core, u.declined, true⟩
              match runWork s a (.run key seq) (bringW a dest (lineSlice (lineWords u.pkt p) off len) (slicePoison p off len)) with
              | .parked tok s => s.endLater key seq e tok
              | .failed cause addr s => (s.countBack c n fun o => o.failing cause (o.stepDst.getD addr)).dropUnacked key seq
              | .done _ s => (s.countBack c n id).dropUnacked key seq
          else if p.type = 3 ∧ p.status = 0 then (s.countBack c n id).dropUnacked key seq
          else (s.countBack c n fun o => o.failing .fabric (windowAddr u.pkt)).dropUnacked key seq
        | .status _ => (s.countBack c n fun o => o.failing .fabric (windowAddr u.pkt)).dropUnacked key seq
        | .group _ => (s.countBack c n fun o => if negative then o.failing .fabric (windowAddr u.pkt) else o).dropUnacked key seq

/-- The ends that waited go on after a reply of the fault service. -/
def State.settleRuns (s : State) : State :=
  s.fab.runs.foldl (fun s r => r.2.flight.foldl (fun s u => match u.ended, u.wait with
    | some e, none => s.endPacket r.1 u.pkt.seq.toNat e
    | _, _ => s) s) s

/-! ### Answers -/

/-- An answer for this device's epoch to an unacknowledged packet of the right kind ends it; any other is dropped (R344, R347). -/
def answerRow (name : String) (type : Nat) (kinds : List Nat) (s : State) : Res :=
  match s.ev with
  | .portPacket i x =>
    if x.type.toNat ≠ type ∨ x.mc ∨ !s.arrives i x then notNow name
    else
      let key := x.source.toNat
      let seq := x.seq.toNat
      match s.unacked? key seq with
      | some u =>
        if x.epoch.toNat ≠ s.pkg.epoch ∨ u.ended.isSome ∨ !kinds.contains u.pkt.type.toNat then .next s
        else .next (s.endPacket key seq (.answer x))
      | none => .next s
  | _ => notNow name

/-- R341, R137. -/
def execReadResponse (s : State) : Res := answerRow "READ_RESPONSE" 1 [0] s
/-- R341, R139. -/
def execAck (s : State) : Res := answerRow "ACK" 3 [2, 6] s
/-- R341, R146. -/
def execAtomicResponse (s : State) : Res := answerRow "ATOMIC_RESPONSE" 5 [4] s
/-- R341, R151. -/
def execNegative (s : State) : Res := answerRow "NEGATIVE" 7 [0, 2, 4, 6] s

/-- The member count of a group (R348). -/
def State.memberCount (s : State) (group : Nat) : Nat := ((s.pkg.mcast.find? group).map McGroup.members).getD 0

/-- R349: counts and negative entries are added until they reach the member count. The ack names this device as its target and the group as
its source, and has the plane of the delivery it counts (R356): one of an earlier delivery adds nothing. -/
def execAggregatedAck (s : State) : Res :=
  match s.ev with
  | .portPacket i x =>
    if x.type ≠ 11 ∨ x.mc ∨ !s.arrives i x then notNow "AGGREGATED_ACK"
    else
      let key := runKey true x.source.toNat
      let seq := x.seq.toNat
      match s.unacked? key seq with
      | none => .next s
      | some u =>
        if x.epoch.toNat ≠ s.pkg.epoch ∨ x.plane ≠ u.pkt.plane ∨ u.ended.isSome then .next s
        else
          let negs := (x.payload.take (fld x.mask.toNat 32 16)).map fun w => (fld w.toNat 0 12, fld w.toNat 12 4)
          let u' := { u with positive := u.positive + fld x.mask.toNat 0 32, negatives := u.negatives ++ negs }
          let s := s.modUnacked key seq fun _ => u'
          .next (if s.memberCount x.source.toNat ≤ u'.positive + u'.negatives.length then s.endPacket key seq (.group 0) else s)
  | _ => notNow "AGGREGATED_ACK"

/-! ### Resends and timeouts (R347, R349) -/

/-- Send a packet again, on a plane or on any: its timeout begins again, and answers to a multicast packet are counted anew. -/
def State.resendOn (s : State) (key : Nat) (u : Unacked) (plane : Option Nat) : State :=
  let low := (((s.fab.runs.find? key).bind fun r => r.flight.head?).map fun x => x.pkt.seq).getD u.pkt.seq
  let p := { u.pkt with lowack := low }
  let (p, s) := match plane with
    | some i => ({ p with plane := BitVec.ofNat 5 i }, s.emitOn i p)
    | none => s.emit p
  s.modUnacked key u.pkt.seq.toNat fun x =>
    { x with pkt := p, resendAt := none, deadline := s.now + packetTimeout, positive := 0, negatives := [] }

/-- The next plane above one among some, wrapping (R347). -/
def nextPlane (ups : List Nat) (last : Nat) : Nat :=
  let low (l : List Nat) : Nat := l.foldl min 18
  let above := ups.filter fun p => last < p
  low (if above = [] then ups else above)

/-- An attempt has timed out on its plane: the packet goes to the next plane, or ends once every plane that is UP has been tried. -/
def State.timeOut (s : State) (key seq : Nat) : State :=
  match s.unacked? key seq with
  | none => s
  | some u =>
    let last := u.pkt.plane.toNat
    let tried := if last < 18 then setInsert u.tried last else u.tried
    let ups := s.upPlanes
    let s := s.modUnacked key seq fun u => { u with tried := tried }
    if ups.all tried.contains then
      s.endPacket key seq (if u.pkt.mc then .group (s.memberCount u.pkt.target.toNat - u.positive - u.negatives.length) else .status 6)
    else s.resendOn key { u with tried := tried } (some (nextPlane ups last))

/-- A timeout of a packet of a run. -/
def timeoutRow (name : String) (mc : Bool) (s : State) : Res :=
  match s.ev with
  | .run key seq =>
    match s.unacked? key seq with
    | none => notNow name
    | some u =>
      if u.pkt.mc ≠ mc ∨ u.ended.isSome ∨ u.resendAt.isSome then notNow name
      else .next (({ s with now := max s.now u.deadline } : State).timeOut key seq)
  | _ => notNow name

/-- R347: 50 µs without an answer. -/
def execFabricTimeout (s : State) : Res := timeoutRow "FABRIC_TIMEOUT" false s
/-- R349: 50 µs short of the member count. -/
def execMulticastTimeout (s : State) : Res := timeoutRow "MULTICAST_TIMEOUT" true s

/-- R347: the hint says when the packet may be sent again; the 50 µs begin again. -/
def execResendRequest (s : State) : Res :=
  match s.ev with
  | .portPacket i x =>
    if x.type ≠ 8 ∨ x.mc ∨ !s.arrives i x then notNow "RESEND_REQUEST"
    else
      match s.unacked? x.source.toNat x.seq.toNat with
      | none => .next s
      | some u =>
        if x.epoch.toNat ≠ s.pkg.epoch ∨ u.ended.isSome then .next s
        else .next (s.modUnacked x.source.toNat x.seq.toNat fun u =>
          { u with resendAt := some (s.now + 18 * 64 * x.lowack.toNat), deadline := s.now + packetTimeout })
  | _ => notNow "RESEND_REQUEST"

/-- R347: the packet is sent again on a plane chosen afresh. -/
def execResend (s : State) : Res :=
  match s.ev with
  | .run key seq =>
    match s.unacked? key seq with
    | none => notNow "RESEND"
    | some u => match u.resendAt with
      | none => notNow "RESEND"
      | some t =>
        if u.ended.isSome then notNow "RESEND" else .next (({ s with now := max s.now t } : State).resendOn key u none)
  | _ => notNow "RESEND"

/-! ### Links leave UP (R347, R353, R354) -/

/-- A port leaves UP: it trains, and every packet unacknowledged on its plane is sent again elsewhere. -/
def State.leaveUp (s : State) (i : Nat) : State :=
  let p := s.port i
  let s := s.setPort i ({ p with sent := [], got := [] }.train 0 false)
  s.fab.runs.foldl (fun s r => r.2.flight.foldl (fun s u =>
    if u.pkt.plane.toNat = i ∧ u.ended.isNone then s.timeOut r.1 u.pkt.seq.toNat else s) s) s

/-- R338, R353: a flit not acknowledged has been replayed 16 times. -/
def execLinkRetrain (s : State) : Res :=
  match s.ev with
  | .index i =>
    let p := s.port i
    if p.st ≠ .up ∨ !p.exhausted then notNow "LINK_RETRAIN" else .next (s.leaveUp i)
  | _ => notNow "LINK_RETRAIN"

/-- R353. -/
def execLossOfSignal (s : State) : Res :=
  match s.ev with
  | .index i => if (s.port i).st ≠ .up then notNow "LOSS_OF_SIGNAL" else .next (s.leaveUp i)
  | _ => notNow "LOSS_OF_SIGNAL"

/-! ### Collectives (R350, R351) -/

/-- The COLL of this device that a result belongs to: context and operation. -/
def State.collFor (s : State) (group seq : Nat) : Option (Nat × EOp) :=
  s.eops.find? fun x => match x.2.cmd with
    | .coll _ _ _ _ grp => grp == group && x.2.running && 0 < x.2.prog && x.2.sent % 65536 == seq
    | _ => false

/-- A COLL fails with a status, after its event record: one entry of peer 0. -/
def collFailW (s : State) (ctx : Nat) (o : EOp) (group line status : Nat) : Work Unit :=
  match s.fab.ctxs.find? ctx with
  | none => pure ()
  | some x => eventsW o.agent x group 0 (future ctx o.num).toNat line 0 1 2 [BitVec.ofNat 32 (status * 4096)]

/-- The COLL has failed, unless its record waits. -/
def State.collFail (s : State) (ctx : Nat) (o : EOp) (group line status : Nat) : Bool × State :=
  match runWork s o.agent (.engine ctx o.num) (collFailW s ctx o group line status) with
  | .parked tok s => (false, s.modEop ctx o.num fun o => { o with wait := [tok] })
  | .failed cause addr s => (true, s.modEop ctx o.num fun o => { o with failure := some (cause, addr) })
  | .done _ s => (true, s.modEop ctx o.num fun o => { o with failure := some (.fabric, 0) })

/-- Perform a collective result: whether it is done with, and the state. -/
def State.takeResult (s : State) (x : Packet) : Bool × State :=
  match s.collFor x.target.toNat x.seq.toNat with
  | none => (true, s)
  | some (ctx, o) => match o.cmd with
    | .coll _ _ dst count grp =>
      let k := x.line.toNat / 256
      if o.failure.isSome || o.got.contains k || collChunks count ≤ k then (true, s)
      else if !o.wait.isEmpty then (false, s)
      else if x.status ≠ 0 then s.collFail ctx o grp x.line.toNat x.status.toNat
      else
        let n := min 64 (count - 64 * k)
        let bs := (List.range n).flatMap fun i => wordBytes (x.payload.getD i 0)
        match runWork s o.agent (.engine ctx o.num) (writeW o.agent (dst.toNat + 256 * k) bs) with
        | .parked tok s => (false, s.modEop ctx o.num fun o => { o with wait := [tok] })
        | .failed cause addr s => (true, s.modEop ctx o.num fun o => { o with failure := some (cause, addr) })
        | .done _ s => (true, s.modEop ctx o.num fun o => { o with got := setInsert o.got k, declined := false })
    | _ => (true, s)

/-- R351: a chunk is written at the member's destination, or the collective has failed. -/
def execCollectiveResult (s : State) : Res :=
  match s.ev with
  | .portPacket i x =>
    if x.type ≠ 13 ∨ !x.mc ∨ !s.arrives i x then notNow "COLLECTIVE_RESULT"
    else
      let (done, s) := s.takeResult x
      .next (if done then s else { s with fab := { s.fab with late := s.fab.late ++ [x] } })
  | _ => notNow "COLLECTIVE_RESULT"

/-- Results that waited for a miss go on. -/
def State.settleLate (s : State) : State :=
  s.fab.late.foldl (fun s x =>
    let (done, s) := s.takeResult x
    if done then s else { s with fab := { s.fab with late := s.fab.late ++ [x] } }) { s with fab := { s.fab with late := [] } }

/-- R351: the collective timeout of the fabric context has passed. -/
def execCollectiveTimeout (s : State) : Res :=
  match s.ev with
  | .engine ctx num =>
    match s.eop? ctx num, s.fab.ctxs.find? ctx with
    | some o, some x => match o.cmd with
      | .coll _ _ _ count grp =>
        if x.timeout = 0 ∨ !o.running ∨ o.failure.isSome ∨ !o.wait.isEmpty ∨ o.got.length = collChunks count then
          notNow "COLLECTIVE_TIMEOUT"
        else
          let s := { s with now := max s.now (o.since + 18000 * x.timeout) }
          .next (s.collFail ctx o grp 0 6).2
      | _ => notNow "COLLECTIVE_TIMEOUT"
    | _, _ => notNow "COLLECTIVE_TIMEOUT"
  | _ => notNow "COLLECTIVE_TIMEOUT"

end Sys2Proof.Machine
end

