-- ==== Sys2Proof/Machine/LaneMem.lean ====
section
/-! DEFINITION. The memory, pad, atomic and prefetch lane words (R132 to R152): how each lane is checked in the pipe and sent.
What becomes of an access that has been sent is in MemEvents.lean. -/
namespace Sys2Proof.Machine

/-- What a lane meets in its pipe cycle (R135). -/
inductive Sent where
  | off
  | bad (cause : Cause) (addr : Dword)
  | go (a : LaneAcc)
deriving DecidableEq, Repr

/-- An access just sent. -/
def LaneAcc.new (k size : Nat) (ea : Dword) (pad : Option Nat) (data : List Byte) (cmp : Word) : LaneAcc :=
  { lane := k, part := 0, ord := 0, size := size, ea := ea, key := none, pad := pad, data := data, cmp := cmp, token := none
    replay := false, declined := false, sent := false }

/-- What the coherence points see of a lane's access: a 16-byte access of this device is two 8-byte halves (R244). -/
def LaneAcc.halves (a : LaneAcc) : List LaneAcc :=
  if a.size = 16 ∧ !a.fab then
    [{ a with size := 8, data := a.data.take 8 }, { a with part := 1, size := 8, ea := a.ea + 8, data := a.data.drop 8 }]
  else [a]

/-- A memory word: its access size, its sources, its destinations, what it is, whether the multicast window takes it. -/
structure MemWord where
  kind : LKind
  size : Nat
  srcs : List Nat
  last : List Nat
  dests : List Nat
  mcOk : Bool

/-- The checks of a global or flat access (R134, R135). -/
def State.checkGlobal (s : State) (c : Issuer) (w : MemWord) (k : Nat) (ea : Dword) (bad : Bool) (data : List Byte) (cmp : Word) :
    Sent :=
  let a := ea.toNat
  let f := s.fctxOf c.team
  if windowOf a = 4 then .bad .xlat ea
  else if 2 ≤ windowOf a ∧ (s.fab.ctxs.find? f).isNone then .bad .prot ea
  else if windowOf a = 3 ∧ (!w.mcOk || !s.groupOk f (fabTarget a)) then .bad .prot ea
  else if a % w.size ≠ 0 then .bad .align ea
  else if bad then .bad .ecc ea
  else .go (LaneAcc.new k w.size ea none data cmp)

/-- The team whose pad a selector names (R142); none where the selector fails locally. -/
def State.padTeam (s : State) (c : Issuer) (sel : Word) : Option Nat :=
  let n := sel.toNat
  if fld n 31 1 = 0 then (if n = 0 then some c.tid else none)
  else if fld n 8 23 ≠ 0 then none
  else
    match s.launches.find? c.team.launch with
    | none => none
    | some L =>
      let x := fld n 0 4
      let y := fld n 4 4
      if L.width ≤ x ∨ L.height ≤ y then none
      else if x = c.team.tx ∧ y = c.team.ty then some c.tid
      else if !c.team.seenCluster then none
      else match L.clusters.find? c.team.cix with
        | some cl => cl.teams[y * L.width + x]?
        | none => none

/-- The checks of a pad access (R135, R142, R286): out of range switches the lane off, or raises PAD in a handler. -/
def State.checkPad (s : State) (c : Issuer) (w : MemWord) (k : Nat) (sel : Word) (off : Int) (bad : Bool) (data : List Byte)
    (cmp : Word) : Sent :=
  let out : Sent := if c.grp.privileged then .bad .pad (BitVec.ofInt 64 off) else .off
  match s.padTeam c sel with
  | none => out
  | some t =>
    if off < 0 ∨ (c.team.padSize : Int) < off + w.size then out
    else if off % w.size ≠ 0 then .bad .align (BitVec.ofInt 64 off)
    else if bad then .bad .ecc (BitVec.ofInt 64 off)
    else .go (LaneAcc.new k w.size (BitVec.ofInt 64 off) (some t) data cmp)

/-- Where a memory word's walk ends before its last lane (R135, R152): at a raise, at a lane that waits for an entry of the transaction
table, or in the pipe. -/
inductive MemStop where
  | raised (k : Nat) (cause : Cause) (addr : Dword)
  | full (k : Nat)
  | pause (k : Nat)
deriving DecidableEq, Repr

/-- Walk the lanes (R135): the accesses sent, the lanes switched off, and where the walk stops. `free` entries of the transaction table are
left, and the instruction holds those of `held` (R140). -/
def walkLanes (cut : Nat → Bool) (f : Nat → Sent) : List Nat → Nat → List Nat → List LaneAcc × Mask × Option MemStop
  | [], _, _ => ([], 0, none)
  | k :: ks, free, held =>
    if cut k then ([], 0, some (.pause k))
    else match f k with
      | .bad c a => ([], 0, some (.raised k c a))
      | .off => let (as, m, e) := walkLanes cut f ks free held; (as, m ||| Mask.one k, e)
      | .go a => match a.entry.filter fun x => !held.contains x with
        | none => let (as, m, e) := walkLanes cut f ks free held; (a :: as, m, e)
        | some x =>
          if free = 0 then ([], 0, some (.full k))
          else let (as, m, e) := walkLanes cut f ks (free - 1) (x :: held); (a :: as, m, e)

/-- Pad stores of one instruction to one word: the highest lane's is written (R138). -/
def LOp.highest (o : LOp) : LOp :=
  if o.kind = .padStore then
    { o with accs := o.accs.filter fun a => !o.accs.any fun b => a.lane < b.lane && a.pad == b.pad && a.ea == b.ea }
  else o

/-- The addresses of the lanes that a walk has still to send. -/
def comingLanes (f : Nat → Sent) (lanes : List Nat) : List (Nat × Dword) := lanes.filterMap fun k => match f k with
  | .go a => some (k, a.ea)
  | _ => none

/-- An earlier acquire load of the group still lacks a value (R145); a handler does not wait for one that stopped at its entry. -/
def Issuer.behindAcquire (c : Issuer) : Bool :=
  c.grp.ops.any fun o => c.spl.prog.bind Progress.op != some o.id && !c.grp.unstarted o && match o.kind with
    | .load _ _ acq => acq
    | _ => false

/-- Issue of a memory word (R66, R79, R135, R139, R140, R145), or the rest of one that is in its pipe: `lane` checks lane k given the base
pair. -/
def memIssue (w : MemWord) (base : Option Nat) (lane : State → Issuer → Dword → Bool → Nat → Sent) (s : State) : Res :=
  withIssuer s fun c =>
    let again := c.spl.prog.isSome
    if !again && (c.behindAcquire || base.any fun b => c.grp.sComing b || c.grp.sComing (b + 1)) then c.stall s
    else if c.active = 0 then c.endEmpty s
    else match if again then Alloc.ok else s.alloc c.team c.grp w.dests w.dests.length with
      | .illegal => c.raise .illegal s
      | .wait => c.retry (.regs w.dests.length) s
      | .ok =>
        let sval := match base with | some b => c.sval b | none => 0
        let reads := match base with | some b => [b, b + 1] | none => []
        let bad := c.badLanes w.srcs
        let id := (c.spl.prog.bind Progress.op).getD c.grp.nextOp
        let ord := (c.spl.prog.bind Progress.ord).getD id
        let check (k : Nat) : Sent := lane s c sval (c.sPoison reads || bad.has k) k
        let todo := (fromLane c.active c.from).lanes
        let (sent, off, stop) := walkLanes c.cutAt check todo (s.entriesFree c.team.core) (c.grp.entriesOf id)
        let accs := (sent.flatMap LaneAcc.halves).map fun a => { a with ord := ord }
        let coming := match stop with
          | some (.pause k) | some (.full k) => comingLanes check (todo.filter (k ≤ ·))
          | _ => []
        let s1 := s.modGroup c.tid c.gid fun g =>
          match c.spl.prog.bind Progress.op with
          | some id => g.modOp id fun o => LOp.highest { o with accs := o.accs ++ accs, coming := coming }
          | none => g.push (LOp.highest { c.lop w.kind with dests := w.dests, nv := w.dests.map fun _ => VReg.zero, accs := accs, coming := coming })
        let kept (k : Nat) : Progress := { c.progress k c.active w.last [] reads sval with op := some id }
        let s2 := match stop with
          | some (.raised k cause addr) => c.raiseAt cause k addr (kept k) s1
          | some (.pause k) => c.pause (kept k) s1
          | some (.full k) => c.stallWalk (c.pause (kept k) s1)
          | none => c.finish (s1.modGroup c.tid c.gid fun g => g.freeNames w.last)
        let s3 := s2.trySend c.tid c.gid id
        if off = 0 then s3
        else (s3.modGroup c.tid c.gid fun g => { g with padFault := g.padFault ||| off }).leave c.tid c.gid off

/-- n consecutive registers from t. -/
def regsFrom (t : BitVec 6) (n : Nat) : List Nat := (List.range n).map (· + t.toNat)
/-- The base pair of a word: s[2sp+1]:s[2sp] (R74). -/
def basePair (r : BitVec 4) : Nat := 2 * r.toNat
/-- The low n bytes that lane k of registers t … holds. -/
def Issuer.dataOf (c : Issuer) (ts : List Nat) (n k : Nat) : List Byte :=
  ((ts.flatMap fun t => wordBytes ((c.src t).lane k)).take n)

/-- A global load, offset form (R133, R137). -/
def loadGlobal (t a : BitVec 6) (r : BitVec 4) (la : Bool) (imm : BitVec 5) (size n : Nat) (signed : Bool) (s : State) : Res :=
  let w : MemWord := ⟨.load size signed false, size, [a.toNat], last1 a la, regsFrom t n, false⟩
  memIssue w (some (basePair r)) (fun s c base bad k =>
    s.checkGlobal c w k (eaOf base ((c.src a.toNat).lane k) imm.toNat size) bad [] 0) s

/-- A global store, offset form (R133, R138). -/
def storeGlobal (t a : BitVec 6) (r : BitVec 4) (la : Bool) (imm : BitVec 5) (size n : Nat) (s : State) : Res :=
  let w : MemWord := ⟨.store none, size, a.toNat :: regsFrom t n, last1 a la, [], true⟩
  memIssue w (some (basePair r)) (fun s c base bad k =>
    s.checkGlobal c w k (eaOf base ((c.src a.toNat).lane k) imm.toNat size) bad (c.dataOf (regsFrom t n) size k) 0) s

/-- R137. -/
def execLdg8n (t a : BitVec 6) (r : BitVec 4) (la : Bool) (imm : BitVec 5) (s : State) : Res := loadGlobal t a r la imm 1 1 false s
/-- R137. -/
def execLdg8i (t a : BitVec 6) (r : BitVec 4) (la : Bool) (imm : BitVec 5) (s : State) : Res := loadGlobal t a r la imm 1 1 true s
/-- R137. -/
def execLdg16n (t a : BitVec 6) (r : BitVec 4) (la : Bool) (imm : BitVec 5) (s : State) : Res := loadGlobal t a r la imm 2 1 false s
/-- R137. -/
def execLdg16i (t a : BitVec 6) (r : BitVec 4) (la : Bool) (imm : BitVec 5) (s : State) : Res := loadGlobal t a r la imm 2 1 true s
/-- R137. -/
def execLdg32 (t a : BitVec 6) (r : BitVec 4) (la : Bool) (imm : BitVec 5) (s : State) : Res := loadGlobal t a r la imm 4 1 false s
/-- R137. -/
def execLdg64 (t a : BitVec 6) (r : BitVec 4) (la : Bool) (imm : BitVec 5) (s : State) : Res := loadGlobal t a r la imm 8 2 false s
/-- R137. -/
def execLdg128 (t a : BitVec 6) (r : BitVec 4) (la : Bool) (imm : BitVec 5) (s : State) : Res :=
  loadGlobal t a r la imm 16 4 false s
/-- R138. -/
def execStg8 (t a : BitVec 6) (r : BitVec 4) (la : Bool) (imm : BitVec 5) (s : State) : Res := storeGlobal t a r la imm 1 1 s
/-- R138. -/
def execStg16 (t a : BitVec 6) (r : BitVec 4) (la : Bool) (imm : BitVec 5) (s : State) : Res := storeGlobal t a r la imm 2 1 s
/-- R138. -/
def execStg32 (t a : BitVec 6) (r : BitVec 4) (la : Bool) (imm : BitVec 5) (s : State) : Res := storeGlobal t a r la imm 4 1 s
/-- R138. -/
def execStg64 (t a : BitVec 6) (r : BitVec 4) (la : Bool) (imm : BitVec 5) (s : State) : Res := storeGlobal t a r la imm 8 2 s
/-- R138. -/
def execStg128 (t a : BitVec 6) (r : BitVec 4) (la : Bool) (imm : BitVec 5) (s : State) : Res := storeGlobal t a r la imm 16 4 s

/-- A pad word: the check of lane k from the base pair, selector high and base low (R133, R142). -/
def padLane (w : MemWord) (a : BitVec 6) (imm : Nat) (data : Issuer → Nat → List Byte) (cmp : Issuer → Nat → Word) (s : State)
    (c : Issuer) (base : Dword) (bad : Bool) (k : Nat) : Sent :=
  s.checkPad c w k (hiWord base) (padOff (loWord base) ((c.src a.toNat).lane k) imm w.size) bad (data c k) (cmp c k)

def loadPad (t a : BitVec 6) (r : BitVec 4) (la : Bool) (imm : BitVec 5) (n : Nat) (s : State) : Res :=
  let w : MemWord := ⟨.padLoad (4 * n), 4 * n, [a.toNat], last1 a la, regsFrom t n, false⟩
  memIssue w (some (basePair r)) (padLane w a imm.toNat (fun _ _ => []) (fun _ _ => 0)) s

def storePad (t a : BitVec 6) (r : BitVec 4) (la : Bool) (imm : BitVec 5) (n : Nat) (s : State) : Res :=
  let w : MemWord := ⟨.padStore, 4 * n, a.toNat :: regsFrom t n, last1 a la, [], false⟩
  memIssue w (some (basePair r)) (padLane w a imm.toNat (fun c k => c.dataOf (regsFrom t n) (4 * n) k) (fun _ _ => 0)) s

/-- R142. -/
def execLdp32 (t a : BitVec 6) (r : BitVec 4) (la : Bool) (imm : BitVec 5) (s : State) : Res := loadPad t a r la imm 1 s
/-- R142. -/
def execLdp64 (t a : BitVec 6) (r : BitVec 4) (la : Bool) (imm : BitVec 5) (s : State) : Res := loadPad t a r la imm 2 s
/-- R142. -/
def execLdp128 (t a : BitVec 6) (r : BitVec 4) (la : Bool) (imm : BitVec 5) (s : State) : Res := loadPad t a r la imm 4 s
/-- R142. -/
def execStp32 (t a : BitVec 6) (r : BitVec 4) (la : Bool) (imm : BitVec 5) (s : State) : Res := storePad t a r la imm 1 s
/-- R142. -/
def execStp64 (t a : BitVec 6) (r : BitVec 4) (la : Bool) (imm : BitVec 5) (s : State) : Res := storePad t a r la imm 2 s
/-- R142. -/
def execStp128 (t a : BitVec 6) (r : BitVec 4) (la : Bool) (imm : BitVec 5) (s : State) : Res := storePad t a r la imm 4 s

/-- The sources of an atomic: operand, and compare value for cas (R146). -/
def atomSrcs (t a : BitVec 6) (code : BitVec 5) : List Nat := a.toNat :: regsFrom t (if code = 12 then 2 else 1)
/-- The compare value of lane k (R74). -/
def atomCmp (t : BitVec 6) (code : BitVec 5) (c : Issuer) (k : Nat) : Word :=
  if code = 12 then (c.src (t.toNat + 1)).lane k else 0

/-- A global atomic or reduction (R146). -/
def atomGlobal (result : Bool) (t a : BitVec 6) (r : BitVec 4) (la : Bool) (code : BitVec 5) (s : State) : Res :=
  let w : MemWord := ⟨.atomic code.toNat result, 4, atomSrcs t a code, last1 a la, if result then [t.toNat] else [], !result⟩
  memIssue w (some (basePair r)) (fun s c base bad k =>
    s.checkGlobal c w k (eaOf base ((c.src a.toNat).lane k) 0 4) bad (c.dataOf [t.toNat] 4 k) (atomCmp t code c k)) s
/-- R146. -/
def execAtomg (t a : BitVec 6) (r : BitVec 4) (la : Bool) (c : BitVec 5) (s : State) : Res := atomGlobal true t a r la c s
/-- R146. -/
def execRedg (t a : BitVec 6) (r : BitVec 4) (la : Bool) (c : BitVec 5) (s : State) : Res := atomGlobal false t a r la c s
/-- R146: at a pad word. -/
def execAtomp (t a : BitVec 6) (r : BitVec 4) (la : Bool) (c : BitVec 5) (s : State) : Res :=
  let w : MemWord := ⟨.padAtomic c.toNat, 4, atomSrcs t a c, last1 a la, [t.toNat], false⟩
  memIssue w (some (basePair r)) (padLane w a 0 (fun i k => i.dataOf [t.toNat] 4 k) (atomCmp t c)) s

/-- R149: a prefetch has no visible effect and raises no fault; a last-read bit frees its source. -/
def execPrefg (a : BitVec 6) (_r : BitVec 4) (la : Bool) (_imm : BitVec 5) (s : State) : Res :=
  withIssuer s fun c =>
    if c.behindAcquire then c.stall s
    else if c.active = 0 then c.finish s
    else c.finish (s.modGroup c.tid c.gid fun g => g.freeNames (last1 a la))

/-- An acquire load (R145). -/
def loadAcquire (t a : BitVec 6) (r : BitVec 4) (la : Bool) (n : Nat) (s : State) : Res :=
  let w : MemWord := ⟨.load (4 * n) false true, 4 * n, [a.toNat], last1 a la, regsFrom t n, false⟩
  memIssue w (some (basePair r)) (fun s c base bad k =>
    s.checkGlobal c w k (eaOf base ((c.src a.toNat).lane k) 0 (4 * n)) bad [] 0) s
/-- A release store (R145). -/
def storeRelease (t a : BitVec 6) (r : BitVec 4) (la : Bool) (scope : BitVec 3) (n : Nat) (s : State) : Res :=
  let w : MemWord := ⟨.store (some scope.toNat), 4 * n, a.toNat :: regsFrom t n, last1 a la, [], true⟩
  memIssue w (some (basePair r)) (fun s c base bad k =>
    s.checkGlobal c w k (eaOf base ((c.src a.toNat).lane k) 0 (4 * n)) bad (c.dataOf (regsFrom t n) (4 * n) k) 0) s
/-- R145: whatever its scope, later memory words of the group wait for its values. -/
def execLda32 (t a : BitVec 6) (r : BitVec 4) (la : Bool) (_c : BitVec 3) (s : State) : Res := loadAcquire t a r la 1 s
/-- R145. -/
def execLda64 (t a : BitVec 6) (r : BitVec 4) (la : Bool) (_c : BitVec 3) (s : State) : Res := loadAcquire t a r la 2 s
/-- R145. -/
def execStl32 (t a : BitVec 6) (r : BitVec 4) (la : Bool) (c : BitVec 3) (s : State) : Res := storeRelease t a r la c 1 s
/-- R145. -/
def execStl64 (t a : BitVec 6) (r : BitVec 4) (la : Bool) (c : BitVec 3) (s : State) : Res := storeRelease t a r la c 2 s

/-- R148: the lane's own 64-bit address. -/
def execLdf32 (t a : BitVec 6) (la : Bool) (imm : BitVec 5) (s : State) : Res :=
  let w : MemWord := ⟨.load 4 false false, 4, [a.toNat, a.toNat + 1], lastPair a la, [t.toNat], false⟩
  memIssue w none (fun s c _ bad k =>
    s.checkGlobal c w k (pairOf (fun n => (c.src n).lane k) a.toNat + BitVec.ofNat 64 (imm.toNat * 4)) bad [] 0) s
/-- R148. -/
def execStf32 (t a : BitVec 6) (la : Bool) (imm : BitVec 5) (s : State) : Res :=
  let w : MemWord := ⟨.store none, 4, [a.toNat, a.toNat + 1, t.toNat], lastPair a la, [], true⟩
  memIssue w none (fun s c _ bad k =>
    s.checkGlobal c w k (pairOf (fun n => (c.src n).lane k) a.toNat + BitVec.ofNat 64 (imm.toNat * 4)) bad
      (c.dataOf [t.toNat] 4 k) 0) s

end Sys2Proof.Machine
end

