-- ==== Sys2Proof/Machine/LanePred.lean ====
section
/-! DEFINITION. Compares and predicate logic (R97, R98). -/
namespace Sys2Proof.Machine

/-- A compare of two v sources into a predicate. -/
def compareInto (p : BitVec 3) (a b : BitVec 6) (la lb : Bool) (cmb : BitVec 2) (f : Word → Word → Bool) (s : State) : Res :=
  laneP Fmt.any [a.toNat, b.toNat] (last2 a b la lb) p.toNat cmb.toNat (fun _ _ v => f (v a.toNat) (v b.toNat)) s

/-- R97. -/
def execIcmp (p : BitVec 3) (a b : BitVec 6) (la lb : Bool) (c : BitVec 2) (k : BitVec 3) (s : State) : Res :=
  compareInto p a b la lb c (icmpCond true k.toNat) s
/-- R97. -/
def execIcmpn (p : BitVec 3) (a b : BitVec 6) (la lb : Bool) (c : BitVec 2) (k : BitVec 3) (s : State) : Res :=
  compareInto p a b la lb c (icmpCond false k.toNat) s
/-- R97: a comparison reads no FMT field. -/
def execFcmp (p : BitVec 3) (a b : BitVec 6) (la lb : Bool) (c : BitVec 2) (k : BitVec 3) (s : State) : Res :=
  compareInto p a b la lb c (fcmpCond k.toNat) s
/-- R98. -/
def execTestb (p : BitVec 3) (a b : BitVec 6) (la lb : Bool) (c : BitVec 2) (s : State) : Res :=
  compareInto p a b la lb c (fun x y => x.getLsbD (fld y.toNat 0 5)) s

/-- The logic of PLOG (R72, R98). -/
def plogFn (f : Nat) (x y : Bool) : Bool :=
  match f with
  | 0 => x && y
  | 1 => x || y
  | 2 => x != y
  | _ => x && !y
/-- R98. -/
def execPlog (p : BitVec 3) (f : BitVec 2) (q r : BitVec 3) (c : BitVec 2) (s : State) : Res :=
  laneP Fmt.any [] [] p.toNat c.toNat
    (fun i k _ => plogFn f.toNat ((i.grp.pred q.toNat).has k) ((i.grp.pred r.toNat).has k)) s

end Sys2Proof.Machine
end

