-- ==== Sys2Proof/Machine/Guard.lean ====
section
/-! DEFINITION. GUARD: a predicate applied to the lane word that follows (R62). -/
namespace Sys2Proof.Machine

/-- The meaning of a lane word; no other word can be guarded (R62). -/
def laneExec (i : Instr) (s : State) : Option Res :=
  match i with
  | .iadd d a b la lb x => some (Sys2Proof.Machine.execIadd d a b la lb x s)
  | .isub d a b la lb x => some (Sys2Proof.Machine.execIsub d a b la lb x s)
  | .imul d a b la lb x => some (Sys2Proof.Machine.execImul d a b la lb x s)
  | .imuln d a b la lb x => some (Sys2Proof.Machine.execImuln d a b la lb x s)
  | .imin d a b la lb x => some (Sys2Proof.Machine.execImin d a b la lb x s)
  | .imax d a b la lb x => some (Sys2Proof.Machine.execImax d a b la lb x s)
  | .and d a b la lb => some (Sys2Proof.Machine.execAnd d a b la lb s)
  | .or d a b la lb => some (Sys2Proof.Machine.execOr d a b la lb s)
  | .xor d a b la lb => some (Sys2Proof.Machine.execXor d a b la lb s)
  | .andn d a b la lb => some (Sys2Proof.Machine.execAndn d a b la lb s)
  | .shl d a b la lb => some (Sys2Proof.Machine.execShl d a b la lb s)
  | .shr d a b la lb x => some (Sys2Proof.Machine.execShr d a b la lb x s)
  | .rot d a b la lb => some (Sys2Proof.Machine.execRot d a b la lb s)
  | .bfx d a b la lb x => some (Sys2Proof.Machine.execBfx d a b la lb x s)
  | .idivn d a b la lb x => some (Sys2Proof.Machine.execIdivn d a b la lb x s)
  | .fadd d a b la lb => some (Sys2Proof.Machine.execFadd d a b la lb s)
  | .fsub d a b la lb => some (Sys2Proof.Machine.execFsub d a b la lb s)
  | .fmul d a b la lb => some (Sys2Proof.Machine.execFmul d a b la lb s)
  | .fmin d a b la lb x => some (Sys2Proof.Machine.execFmin d a b la lb x s)
  | .fmax d a b la lb x => some (Sys2Proof.Machine.execFmax d a b la lb x s)
  | .hadd2 d a b la lb => some (Sys2Proof.Machine.execHadd2 d a b la lb s)
  | .hsub2 d a b la lb => some (Sys2Proof.Machine.execHsub2 d a b la lb s)
  | .hmul2 d a b la lb => some (Sys2Proof.Machine.execHmul2 d a b la lb s)
  | .hmin2 d a b la lb => some (Sys2Proof.Machine.execHmin2 d a b la lb s)
  | .hmax2 d a b la lb => some (Sys2Proof.Machine.execHmax2 d a b la lb s)
  | .pack2 d a b la lb x => some (Sys2Proof.Machine.execPack2 d a b la lb x s)
  | .iadd64 d a b la lb x => some (Sys2Proof.Machine.execIadd64 d a b la lb x s)
  | .isub64 d a b la lb => some (Sys2Proof.Machine.execIsub64 d a b la lb s)
  | .fdiv d a b la lb => some (Sys2Proof.Machine.execFdiv d a b la lb s)
  | .movi d imm => some (Sys2Proof.Machine.execMovi d imm s)
  | .movhi d imm => some (Sys2Proof.Machine.execMovhi d imm s)
  | .iaddi d imm => some (Sys2Proof.Machine.execIaddi d imm s)
  | .imuli d imm => some (Sys2Proof.Machine.execImuli d imm s)
  | .andi d imm => some (Sys2Proof.Machine.execAndi d imm s)
  | .ori d imm => some (Sys2Proof.Machine.execOri d imm s)
  | .xori d imm => some (Sys2Proof.Machine.execXori d imm s)
  | .shli d imm => some (Sys2Proof.Machine.execShli d imm s)
  | .shri d imm => some (Sys2Proof.Machine.execShri d imm s)
  | .shrai d imm => some (Sys2Proof.Machine.execShrai d imm s)
  | .faddi d imm => some (Sys2Proof.Machine.execFaddi d imm s)
  | .fmuli d imm => some (Sys2Proof.Machine.execFmuli d imm s)
  | .fmovi d imm => some (Sys2Proof.Machine.execFmovi d imm s)
  | .hadd2i d imm => some (Sys2Proof.Machine.execHadd2i d imm s)
  | .hmul2i d imm => some (Sys2Proof.Machine.execHmul2i d imm s)
  | .hmovi2 d imm => some (Sys2Proof.Machine.execHmovi2 d imm s)
  | .qmovi4 d imm => some (Sys2Proof.Machine.execQmovi4 d imm s)
  | .fmini d imm => some (Sys2Proof.Machine.execFmini d imm s)
  | .fmaxi d imm => some (Sys2Proof.Machine.execFmaxi d imm s)
  | .ffma d a b la lb r => some (Sys2Proof.Machine.execFfma d a b la lb r s)
  | .fnma d a b la lb r => some (Sys2Proof.Machine.execFnma d a b la lb r s)
  | .hfma2 d a b la lb => some (Sys2Proof.Machine.execHfma2 d a b la lb s)
  | .imad d a b la lb h => some (Sys2Proof.Machine.execImad d a b la lb h s)
  | .dot4 d a b la lb => some (Sys2Proof.Machine.execDot4 d a b la lb s)
  | .dot8 d a b la lb => some (Sys2Proof.Machine.execDot8 d a b la lb s)
  | .dot2h d a b la lb => some (Sys2Proof.Machine.execDot2h d a b la lb s)
  | .bfi d a b la lb => some (Sys2Proof.Machine.execBfi d a b la lb s)
  | .permb d a b la lb => some (Sys2Proof.Machine.execPermb d a b la lb s)
  | .sel d a b la lb p => some (Sys2Proof.Machine.execSel d a b la lb p s)
  | .fclamp d a b la lb => some (Sys2Proof.Machine.execFclamp d a b la lb s)
  | .imadw d a b la lb => some (Sys2Proof.Machine.execImadw d a b la lb s)
  | .mov d a la => some (Sys2Proof.Machine.execMov d a la s)
  | .fabs d a la => some (Sys2Proof.Machine.execFabs d a la s)
  | .fneg d a la => some (Sys2Proof.Machine.execFneg d a la s)
  | .ineg d a la => some (Sys2Proof.Machine.execIneg d a la s)
  | .not d a la => some (Sys2Proof.Machine.execNot d a la s)
  | .popc d a la => some (Sys2Proof.Machine.execPopc d a la s)
  | .clz d a la => some (Sys2Proof.Machine.execClz d a la s)
  | .brev d a la => some (Sys2Proof.Machine.execBrev d a la s)
  | .frcp d a la => some (Sys2Proof.Machine.execFrcp d a la s)
  | .frsq d a la => some (Sys2Proof.Machine.execFrsq d a la s)
  | .fsqrt d a la => some (Sys2Proof.Machine.execFsqrt d a la s)
  | .fexp2 d a la => some (Sys2Proof.Machine.execFexp2 d a la s)
  | .flog2 d a la => some (Sys2Proof.Machine.execFlog2 d a la s)
  | .fsin d a la => some (Sys2Proof.Machine.execFsin d a la s)
  | .fcos d a la => some (Sys2Proof.Machine.execFcos d a la s)
  | .ftanh d a la => some (Sys2Proof.Machine.execFtanh d a la s)
  | .ftoi d a la => some (Sys2Proof.Machine.execFtoi d a la s)
  | .itof d a la => some (Sys2Proof.Machine.execItof d a la s)
  | .fcvt d a la h => some (Sys2Proof.Machine.execFcvt d a la h s)
  | .hcvt d a la h => some (Sys2Proof.Machine.execHcvt d a la h s)
  | .qcvt d a la b => some (Sys2Proof.Machine.execQcvt d a la b s)
  | .qunp d a la b => some (Sys2Proof.Machine.execQunp d a la b s)
  | .q4cvt d a la n => some (Sys2Proof.Machine.execQ4cvt d a la n s)
  | .q4unp d a la n => some (Sys2Proof.Machine.execQ4unp d a la n s)
  | .frnd d a la r => some (Sys2Proof.Machine.execFrnd d a la r s)
  | .fclass d a la => some (Sys2Proof.Machine.execFclass d a la s)
  | .laneid d => some (Sys2Proof.Machine.execLaneid d s)
  | .icmp p a b la lb c k => some (Sys2Proof.Machine.execIcmp p a b la lb c k s)
  | .icmpn p a b la lb c k => some (Sys2Proof.Machine.execIcmpn p a b la lb c k s)
  | .fcmp p a b la lb c k => some (Sys2Proof.Machine.execFcmp p a b la lb c k s)
  | .testb p a b la lb c => some (Sys2Proof.Machine.execTestb p a b la lb c s)
  | .plog p f q r c => some (Sys2Proof.Machine.execPlog p f q r c s)
  | .scan d a r la k => some (Sys2Proof.Machine.execScan d a r la k s)
  | .scanx d a r la k => some (Sys2Proof.Machine.execScanx d a r la k s)
  | .reduce a r la k => some (Sys2Proof.Machine.execReduce a r la k s)
  | .prevLane d a r la => some (Sys2Proof.Machine.execPrevLane d a r la s)
  | .nextLane d a r la => some (Sys2Proof.Machine.execNextLane d a r la s)
  | .shup d a r la g => some (Sys2Proof.Machine.execShup d a r la g s)
  | .shdn d a r la g => some (Sys2Proof.Machine.execShdn d a r la g s)
  | .bfly d a r la g => some (Sys2Proof.Machine.execBfly d a r la g s)
  | .perm d a r la g => some (Sys2Proof.Machine.execPerm d a r la g s)
  | .bcastl d a r la g => some (Sys2Proof.Machine.execBcastl d a r la g s)
  | .vote p r => some (Sys2Proof.Machine.execVote p r s)
  | .matchEq d a r la => some (Sys2Proof.Machine.execMatchEq d a r la s)
  | .gets d r => some (Sys2Proof.Machine.execGets d r s)
  | .puts a r la => some (Sys2Proof.Machine.execPuts a r la s)
  | .ldg8n t a r la imm => some (Sys2Proof.Machine.execLdg8n t a r la imm s)
  | .ldg8i t a r la imm => some (Sys2Proof.Machine.execLdg8i t a r la imm s)
  | .ldg16n t a r la imm => some (Sys2Proof.Machine.execLdg16n t a r la imm s)
  | .ldg16i t a r la imm => some (Sys2Proof.Machine.execLdg16i t a r la imm s)
  | .ldg32 t a r la imm => some (Sys2Proof.Machine.execLdg32 t a r la imm s)
  | .ldg64 t a r la imm => some (Sys2Proof.Machine.execLdg64 t a r la imm s)
  | .ldg128 t a r la imm => some (Sys2Proof.Machine.execLdg128 t a r la imm s)
  | .stg8 t a r la imm => some (Sys2Proof.Machine.execStg8 t a r la imm s)
  | .stg16 t a r la imm => some (Sys2Proof.Machine.execStg16 t a r la imm s)
  | .stg32 t a r la imm => some (Sys2Proof.Machine.execStg32 t a r la imm s)
  | .stg64 t a r la imm => some (Sys2Proof.Machine.execStg64 t a r la imm s)
  | .stg128 t a r la imm => some (Sys2Proof.Machine.execStg128 t a r la imm s)
  | .ldp32 t a r la imm => some (Sys2Proof.Machine.execLdp32 t a r la imm s)
  | .ldp64 t a r la imm => some (Sys2Proof.Machine.execLdp64 t a r la imm s)
  | .ldp128 t a r la imm => some (Sys2Proof.Machine.execLdp128 t a r la imm s)
  | .stp32 t a r la imm => some (Sys2Proof.Machine.execStp32 t a r la imm s)
  | .stp64 t a r la imm => some (Sys2Proof.Machine.execStp64 t a r la imm s)
  | .stp128 t a r la imm => some (Sys2Proof.Machine.execStp128 t a r la imm s)
  | .atomg t a r la c => some (Sys2Proof.Machine.execAtomg t a r la c s)
  | .redg t a r la c => some (Sys2Proof.Machine.execRedg t a r la c s)
  | .atomp t a r la c => some (Sys2Proof.Machine.execAtomp t a r la c s)
  | .prefg a r la imm => some (Sys2Proof.Machine.execPrefg a r la imm s)
  | .lda32 t a r la c => some (Sys2Proof.Machine.execLda32 t a r la c s)
  | .lda64 t a r la c => some (Sys2Proof.Machine.execLda64 t a r la c s)
  | .stl32 t a r la c => some (Sys2Proof.Machine.execStl32 t a r la c s)
  | .stl64 t a r la c => some (Sys2Proof.Machine.execStl64 t a r la c s)
  | .ldf32 t a la imm => some (Sys2Proof.Machine.execLdf32 t a la imm s)
  | .stf32 t a la imm => some (Sys2Proof.Machine.execStf32 t a la imm s)
  | _ => none

/-- R62: one instruction of two words: the guarded word runs in the active lanes where the predicate is 1, or 0 with neg; a word that
is not a legal lane word is ILLEGAL at the GUARD's address. -/
def execGuard (p : BitVec 3) (n : Bool) (w : Word) (s : State) : Res :=
  let s := { s with cur := { s.cur with len := 8, m := w.getLsbD 30, guard := some (p, n) } }
  match decodeWord w.toNat 0 with
  | .ok i =>
    match laneExec i s with
    | some r => r
    | none => withIssuer s fun c => c.raise .illegal s
  | .error _ => withIssuer s fun c => c.raise .illegal s

end Sys2Proof.Machine
end

