-- ==== Sys2Proof/Machine/HostRegs.lean ====
section
/-! DEFINITION. The host's side (R335, R336, R348, R357 to R362): BAR registers, fabric contexts, exports, encoder sessions, host links
and expanders. -/
namespace Sys2Proof.Machine

/-! ### Registers of BAR 0 (R358) -/

/-- Replace the 32-bit word at a byte offset of a field. -/
def putWord (bs : List Byte) (off : Nat) (w : Word) : List Byte := bs.take off ++ wordBytes w ++ bs.drop (off + 4)

def putHalf (x : Dword) (hi : Bool) (w : Word) : Dword := if hi then pair w (loWord x) else pair (hiWord x) w

/-- An entry of the multicast group table from its first two words (R348). -/
def mcastEntry (w0 w1 : Word) : Option McGroup :=
  if fld w1.toNat 0 1 = 1 then some ⟨fld w0.toNat 0 13, fld w0.toNat 16 16⟩ else none

/-- The staged fabric context as 64 bytes. -/
def Pkg.staged (p : Pkg) : List Byte := if p.fabStage.length = 64 then p.fabStage else List.replicate 64 0

/-- A source starts its runs at seq 0 when its epoch is set (R344). -/
def State.restartRuns (s : State) : State :=
  { s with fab := { s.fab with runs := List.map (fun (r : Nat × Run) => (r.1, { r.2 with next := 0 })) s.fab.runs, colls := [] } }

/-- The entry of the session table at an index; one that nothing has written is all zeros. -/
def Pkg.session (p : Pkg) (i : Nat) : Session := (p.sessions.find? i).getD ⟨List.replicate 64 0, 0, 0, false, 0, 0, 0⟩

/-- Write a word of a session entry (R358, R361, R362): not while it closes, nor bytes 0 to 3, which the device keeps, nor 4 to 23 of an open
one. -/
def State.writeSession (s : State) (i o : Nat) (v : Word) : State :=
  let x := s.pkg.session i
  if x.status = 3 ∨ o < 4 ∨ x.valid ∧ x.status = 0 ∧ o < 24 then s
  else { s with pkg := { s.pkg with sessions := s.pkg.sessions.insert i { x with entry := putWord x.entry o v } } }

/-- Write a register without behaviour of its own (R358); a read-only or unlisted offset drops the write. -/
def State.writeReg (s : State) (off : Nat) (v : Word) : State :=
  let p := s.pkg
  let hi := off % 8 == 4
  match off with
  | 0x010000 | 0x010004 => { s with pkg := { p with adminBase := putHalf p.adminBase hi v } }
  | 0x010008 => { s with pkg := { p with adminLog2 := v.toNat } }
  | 0x010010 | 0x010014 => { s with pkg := { p with adminPull := putHalf p.adminPull hi v } }
  | 0x010018 | 0x01001C => { s with pkg := { p with adminRead := putHalf p.adminRead hi v } }
  | 0x010100 | 0x010104 => { s with pkg := { p with faultBase := putHalf p.faultBase hi v } }
  | 0x010108 => { s with pkg := { p with faultLog2 := v.toNat } }
  | 0x010110 => flushRecords p.records.length { s with pkg := { p with faultCons := v.toNat } }
  | 0x020000 => State.restartRuns { s with pkg := { p with peer := fld v.toNat 0 12, epoch := fld v.toNat 12 4 } }
  | _ =>
    if 0x020040 ≤ off ∧ off < 0x020080 then { s with pkg := { p with fabStage := putWord p.staged (off - 0x020040) v } }
    else if 0x200000 ≤ off ∧ off < 0x210000 then
      let regs := SMap.put 0 p.regs off v
      let i := (off - 0x200000) / 16
      let a := 0x200000 + 16 * i
      let mcast := match mcastEntry (SMap.getD regs a 0) (SMap.getD regs (a + 4) 0) with
        | some m => p.mcast.insert i m
        | none => p.mcast.erase i
      { s with pkg := { p with regs := regs, mcast := mcast } }
    else if 0x300000 ≤ off ∧ off < 0x304000 then s.writeSession (off % 16384 / 64) (off % 64) v
    else s

/-- A write that is a row of its own: recovery's go (R329), the power cap, the admin doorbell, creating or destroying a fabric context, the
export table; in the session table one that sets valid, or clears it. -/
def State.ownRow (s : State) (off : Nat) (v : Word) : Bool :=
  let session := s.pkg.session (off % 16384 / 64)
  off == 0x8 && s.pkg.stage == 8 && v.getLsbD 0 || off == 0x20 || off == 0x010020 || off == 0x020080 && (v == 1 || v == 2) ||
    0x100000 ≤ off && off < 0x102000 || 0x300000 ≤ off && off < 0x304000 && off % 64 == 0 && session.status != 3 &&
      (if session.valid then !v.getLsbD 31 || session.status != 0 else v.getLsbD 31)

/-- A register that the package presents (R329): in recovery the boot status, the recovery control and the certificate alone; a running
recovery image has its admin ring too. -/
def Pkg.presents (p : Pkg) (off : Nat) : Bool :=
  p.stage < 8 || off == 0 || off == 8 || off == 0x10 || 0x1000 ≤ off && off < 0x1800 || p.stage == 10 && 0x10000 ≤ off && off < 0x10020

/-- R358. -/
def execRegisterWrite (s : State) : Res :=
  match s.ev with
  | .reg off v =>
    if s.ownRow off v || off % 4 != 0 then notNow "REGISTER_WRITE" else .next (if s.pkg.presents off then s.writeReg off v else s)
  | _ => notNow "REGISTER_WRITE"

/-- The 32 bytes of an export entry (R335). -/
def Export.bytes (e : Export) : List Byte :=
  natBytes 2 e.domain ++ natBytes 2 e.space ++ natBytes 4 (e.valid.toNat + 2 * e.ro.toNat + 4 * e.revoked.toNat) ++ natBytes 8 e.base ++
    natBytes 8 e.size ++ natBytes 8 0

/-- What a bank holds, as numbers. -/
def SnapCore.numbers (c : SnapCore) : List Nat :=
  [c.core, c.clk] ++ (c.groups.flatMap fun g => [g.1, g.2.1] ++ g.2.2.flatMap fun e => [e.entry, e.pc.toNat, e.act.toNat, e.code]) ++
    (c.issues.flatMap fun i => [i.1, i.2]) ++ [c.occupancy] ++ c.banks

/-- The snapshot banks (R290, R358): of cores, sector controllers, translation engines, die caches, engines, encoders and the scheduler. -/
def snapBanks : Nat := 1536 + 64 + 8 + 8 + Config.engineBanks + 8 + 1

/-- A word of the snapshot area (R358): of a core's bank, or of the banks after those, whose number of engines the manual does not give. The
place of the content in a bank is free (log entry 51). -/
def State.snapWord (s : State) (off : Nat) : Word :=
  let n := (off - 0x1000000) / 65536
  let held := if n < 1536 then match s.pkg.snaps.find? fun c => c.core == n with
      | some c => c.numbers
      | none => [n, 18 * s.pkg.snapTime / 5]
    else [n] ++ s.pkg.snapRest.flatMap fun b => [b.kind, b.index] ++ b.held
  Config.bankWord (s.pkg.snapTime :: held) (off % 65536)

/-- The register at an offset of BAR 0 (R358); an unlisted offset reads 0. -/
def State.regAt (s : State) (off : Nat) : Word :=
  let p := s.pkg
  match off with
  | 0x000000 => s.bootStatus
  | 0x000008 => BitVec.ofNat 32 (p.recGo && 8 ≤ p.stage).toNat
  | 0x000010 => BitVec.ofNat 32 (Config.certificate.take 2048).length
  | 0x000018 => p.bringUp
  | 0x000020 => p.powerCap
  | 0x000024 => s.effectiveCap
  | 0x000028 => Config.powerDraw s.now
  | 0x000030 => BitVec.ofNat 32 p.sensor
  | 0x010000 => loWord p.adminBase
  | 0x010004 => hiWord p.adminBase
  | 0x010008 => BitVec.ofNat 32 p.adminLog2
  | 0x010010 => loWord p.adminPull
  | 0x010014 => hiWord p.adminPull
  | 0x010018 => loWord p.adminRead
  | 0x01001C => hiWord p.adminRead
  | 0x010100 => loWord p.faultBase
  | 0x010104 => hiWord p.faultBase
  | 0x010108 => BitVec.ofNat 32 p.faultLog2
  | 0x010110 => BitVec.ofNat 32 p.faultCons
  | 0x010118 => BitVec.ofNat 32 p.faultProd
  | 0x020000 => BitVec.ofNat 32 (p.peer + 4096 * p.epoch)
  | 0x020084 => p.fabLast
  | _ =>
    if 0x001000 ≤ off ∧ off < 0x001800 then bytesWord ((Config.certificate.drop (off - 0x001000)).take 4)
    else if 0x020040 ≤ off ∧ off < 0x020080 then bytesWord ((p.staged.drop (off - 0x020040)).take 4)
    else if 0x100000 ≤ off ∧ off < 0x102000 then
      bytesWord (((((p.exports.find? (off % 8192 / 32)).map Export.bytes).getD []).drop (off % 32)).take 4)
    else if 0x200000 ≤ off ∧ off < 0x210000 then p.regs.getD off 0
    else if 0x300000 ≤ off ∧ off < 0x304000 then
      bytesWord (((((p.sessions.find? (off % 16384 / 64)).map Session.entry).getD []).drop (off % 64)).take 4)
    else if 0x1000000 ≤ off ∧ off < 0x1000000 + 65536 * snapBanks then s.snapWord off
    else 0

/-- What the host reads at an offset of BAR 0; without power nothing answers (R11). -/
def State.readReg (s : State) (off : Nat) : Option Word :=
  if s.pkg.powered then some (if s.pkg.presents off then s.regAt off else 0) else none

/-- What a host reads over host link 1, which in recovery presents the boot status alone (R329). -/
def State.readSecond (s : State) (off : Nat) : Option Word :=
  if s.pkg.powered then some (if (s.pkg.stage < 8 || off == 0) && s.pkg.presents off then s.regAt off else 0) else none

/-! ### Snapshots (R290) -/

/-- In recovery only what R329 lists is presented: a write elsewhere is dropped. -/
def unlessRecovery (s : State) (r : Res) : Res := if 8 ≤ s.pkg.stage then .next s else r

/-- R290: a host register write fires the trigger; disarmed banks ignore it. -/
def execSnapshotTrigger (s : State) : Res :=
  unlessRecovery s <| .next (match List.find? (fun (c : Nat × Ctx) => c.2.armed) s.ctxs with
    | some c => s.trigger c.1
    | none => s)

/-! ### Fabric contexts and exports (R335, R336) -/

/-- The staged descriptor is well formed (R336). -/
def Pkg.stagedOk (p : Pkg) : Bool :=
  let f := fieldAt p.staged
  f 3 1 == 0 && f 8 8 % 4096 == 0 && f 16 8 % 4 == 0 && zeroFrom p.staged 28

/-- R336: the staged context is created, or refused. -/
def execFabricContextCreate (s : State) : Res :=
  unlessRecovery s <|
  let f := fieldAt s.pkg.staged
  if !s.pkg.stagedOk || (s.ctxs.find? (f 4 2)).isNone then .next { s with pkg := { s.pkg with fabLast := BitVec.ofNat 32 (2 ^ 31) } }
  else
    let (id, s) := s.newCtx .fabric (f 4 2)
    let x : FabCtx := ⟨f 6 2, BitVec.ofNat 64 (f 8 8), BitVec.ofNat 64 (f 16 8), f 24 4⟩
    .next { s with
      fab := { s.fab with ctxs := s.fab.ctxs.insert id x }
      pkg := { s.pkg with fabLast := BitVec.ofNat 32 id, fabStage := natBytes 4 id ++ s.pkg.staged.drop 4 } }

/-- R358: the context that bytes 0 to 3 name is destroyed; its futures stay valid. -/
def execFabricContextDestroy (s : State) : Res :=
  unlessRecovery s <| .next { s with fab := { s.fab with ctxs := s.fab.ctxs.erase (fieldAt s.pkg.staged 0 4) } }

/-- R335: packets are performed in one step, so every one checked under the old entry is done. An entry whose bytes are all zero is the one
that an unlisted index holds. -/
def execExportTableWrite (s : State) : Res :=
  unlessRecovery s <| match s.ev with
  | .entry i bs =>
    if 256 ≤ i ∨ bs.length ≠ 32 then notNow "EXPORT_TABLE_WRITE"
    else
      let f := fieldAt bs
      let e : Export := ⟨fld (f 4 1) 0 1 == 1, f 0 2, f 2 2, fld (f 4 1) 1 1 == 1, fld (f 4 1) 2 1 == 1, f 8 8, f 16 8⟩
      .next { s with pkg := { s.pkg with
        exports := if bs.all (· == 0) then s.pkg.exports.erase i else s.pkg.exports.insert i e } }
  | _ => notNow "EXPORT_TABLE_WRITE"

/-! ### Encoder sessions (R361, R362) -/

/-- A session entry is well formed. -/
def sessionOk (bs : List Byte) : Bool :=
  let f := fieldAt bs
  let size (n : Nat) : Bool := n % 8 == 0 && 64 ≤ n && n ≤ 4096
  f 6 1 ≤ 3 && f 7 1 == 0 && size (f 8 2) && size (f 10 2) && 1 ≤ f 12 2 && f 12 2 ≤ 400 && f 14 2 == 0 && zeroFrom bs 24

/-- Luma samples per second of an entry. -/
def sessionLoad (bs : List Byte) : Nat := fieldAt bs 8 2 * fieldAt bs 10 2 * fieldAt bs 12 2

/-- The load of an encoder. -/
def State.encoderLoad (s : State) (e : Nat) : Nat :=
  sumOf (s.pkg.sessions.filter fun x => x.2.encoder == e && (x.2.status == 0 || x.2.status == 3)) fun x => x.2.load

/-- The encoder with the lowest load that can take more, the lower number on equal loads (R361). -/
def State.encoderFor (s : State) (load : Nat) : Option Nat :=
  ((List.range 8).filter fun e => s.encoderLoad e + load ≤ 830000000).foldl (fun b e => match b with
    | none => some e
    | some x => if s.encoderLoad e < s.encoderLoad x then some e else some x) none

/-- The entry with the device's identifier, status and valid bit. -/
def sessionEntry (bs : List Byte) (id status : Nat) (valid : Bool) : List Byte :=
  natBytes 4 (id + status * 2 ^ 24 + valid.toNat * 2 ^ 31) ++ bs.drop 4

/-- R361, R362: a write that sets valid; an open or closing entry drops it. -/
def execSessionOpen (s : State) : Res :=
  unlessRecovery s <| match s.ev with
  | .entry i bs =>
    if 256 ≤ i ∨ bs.length ≠ 64 ∨ fld (fieldAt bs 0 4) 31 1 = 0 then notNow "SESSION_OPEN"
    else
      let old := s.pkg.sessions.find? i
      if old.any fun x => x.status == 3 || x.valid && x.status == 0 then .next s
      else
        let refuse (status : Nat) : State :=
          let x : Session := ⟨sessionEntry bs 0 status true, 0, status, true, fieldAt bs 4 2, 0, 0⟩
          { s with pkg := { s.pkg with sessions := s.pkg.sessions.insert i x } }
        if !sessionOk bs then .next (refuse 1)
        else match s.encoderFor (sessionLoad bs) with
          | none => .next (refuse 2)
          | some e =>
            let (id, s) := s.newCtx (.encoder i) (fieldAt bs 4 2)
            let x : Session := ⟨sessionEntry bs id 0 true, id, 0, true, fieldAt bs 4 2, e, sessionLoad bs⟩
            .next { s with pkg := { s.pkg with sessions := s.pkg.sessions.insert i x } }
  | _ => notNow "SESSION_OPEN"

/-- No operation of a closing session runs: it is closed, and its load leaves its encoder (R362). -/
def State.closeSessions (s : State) : State :=
  let close (x : Nat × Session) : Nat × Session :=
    if x.2.status = 3 ∧ ((s.ectxs.find? x.2.id).map fun c => c.pend.isEmpty).getD true then
      (x.1, { x.2 with entry := sessionEntry x.2.entry x.2.id 4 false, status := 4, load := 0 })
    else x
  { s with pkg := { s.pkg with sessions := List.map close s.pkg.sessions } }

/-- R362: clearing valid closes a session: what has not started is cancelled. -/
def execSessionClose (s : State) : Res :=
  unlessRecovery s <| match s.ev with
  | .index i =>
    match s.pkg.sessions.find? i with
    | none => notNow "SESSION_CLOSE"
    | some x =>
      if !x.valid || x.status == 3 then .next s
      else if x.status ≠ 0 then
        let y := { x with valid := false, entry := sessionEntry x.entry x.id x.status false }
        .next { s with pkg := { s.pkg with sessions := s.pkg.sessions.insert i y } }
      else
        let n := ((s.ectxs.find? x.id).map ECtx.issued).getD 0
        let y := { x with valid := false, status := 3, entry := sessionEntry x.entry x.id 3 false }
        .next (State.closeSessions (State.cancel { s with pkg := { s.pkg with sessions := s.pkg.sessions.insert i y } } x.id n))
  | _ => notNow "SESSION_CLOSE"

/-! ### Links and expanders (R357, R360) -/

/-- R357: tier-2 traffic moves to the other link, or is refused where there is none. -/
def execHostLinkDown (s : State) : Res :=
  match s.ev with
  | .index i =>
    if 2 ≤ i then notNow "HOST_LINK_DOWN" else .next { s with pkg := { s.pkg with hostDown := setInsert s.pkg.hostDown i } }
  | _ => notNow "HOST_LINK_DOWN"

/-- R357. -/
def execHostLinkUp (s : State) : Res :=
  match s.ev with
  | .index i =>
    if !s.pkg.hostDown.contains i then notNow "HOST_LINK_UP"
    else .next { s with pkg := { s.pkg with hostDown := setErase s.pkg.hostDown i } }
  | _ => notNow "HOST_LINK_UP"

/-- R360: tier-1 accesses to the port's range become unserviceable. -/
def execCxlPortFailure (s : State) : Res :=
  match s.ev with
  | .index i =>
    if (s.pkg.cxl.find? i).isNone then notNow "CXL_PORT_FAILURE"
    else .next { s with pkg := { s.pkg with cxlFailed := setInsert s.pkg.cxlFailed i } }
  | _ => notNow "CXL_PORT_FAILURE"

end Sys2Proof.Machine
end

