-- ==== Sys2Proof/Machine/Dispatch.lean ====
section
/-! DEFINITION. What each instruction and event does: one arm per constructor, each a direct call of its meaning. -/
namespace Sys2Proof.Machine

def exec (i : Instr) (s : State) : Host.Outcome State Fault Refusal :=
  match i with
  | .iadd d a b la lb x => Sys2Proof.Machine.execIadd d a b la lb x s
  | .isub d a b la lb x => Sys2Proof.Machine.execIsub d a b la lb x s
  | .imul d a b la lb x => Sys2Proof.Machine.execImul d a b la lb x s
  | .imuln d a b la lb x => Sys2Proof.Machine.execImuln d a b la lb x s
  | .imin d a b la lb x => Sys2Proof.Machine.execImin d a b la lb x s
  | .imax d a b la lb x => Sys2Proof.Machine.execImax d a b la lb x s
  | .and d a b la lb => Sys2Proof.Machine.execAnd d a b la lb s
  | .or d a b la lb => Sys2Proof.Machine.execOr d a b la lb s
  | .xor d a b la lb => Sys2Proof.Machine.execXor d a b la lb s
  | .andn d a b la lb => Sys2Proof.Machine.execAndn d a b la lb s
  | .shl d a b la lb => Sys2Proof.Machine.execShl d a b la lb s
  | .shr d a b la lb x => Sys2Proof.Machine.execShr d a b la lb x s
  | .rot d a b la lb => Sys2Proof.Machine.execRot d a b la lb s
  | .bfx d a b la lb x => Sys2Proof.Machine.execBfx d a b la lb x s
  | .idivn d a b la lb x => Sys2Proof.Machine.execIdivn d a b la lb x s
  | .fadd d a b la lb => Sys2Proof.Machine.execFadd d a b la lb s
  | .fsub d a b la lb => Sys2Proof.Machine.execFsub d a b la lb s
  | .fmul d a b la lb => Sys2Proof.Machine.execFmul d a b la lb s
  | .fmin d a b la lb x => Sys2Proof.Machine.execFmin d a b la lb x s
  | .fmax d a b la lb x => Sys2Proof.Machine.execFmax d a b la lb x s
  | .hadd2 d a b la lb => Sys2Proof.Machine.execHadd2 d a b la lb s
  | .hsub2 d a b la lb => Sys2Proof.Machine.execHsub2 d a b la lb s
  | .hmul2 d a b la lb => Sys2Proof.Machine.execHmul2 d a b la lb s
  | .hmin2 d a b la lb => Sys2Proof.Machine.execHmin2 d a b la lb s
  | .hmax2 d a b la lb => Sys2Proof.Machine.execHmax2 d a b la lb s
  | .pack2 d a b la lb x => Sys2Proof.Machine.execPack2 d a b la lb x s
  | .iadd64 d a b la lb x => Sys2Proof.Machine.execIadd64 d a b la lb x s
  | .isub64 d a b la lb => Sys2Proof.Machine.execIsub64 d a b la lb s
  | .fdiv d a b la lb => Sys2Proof.Machine.execFdiv d a b la lb s
  | .movi d imm => Sys2Proof.Machine.execMovi d imm s
  | .movhi d imm => Sys2Proof.Machine.execMovhi d imm s
  | .iaddi d imm => Sys2Proof.Machine.execIaddi d imm s
  | .imuli d imm => Sys2Proof.Machine.execImuli d imm s
  | .andi d imm => Sys2Proof.Machine.execAndi d imm s
  | .ori d imm => Sys2Proof.Machine.execOri d imm s
  | .xori d imm => Sys2Proof.Machine.execXori d imm s
  | .shli d imm => Sys2Proof.Machine.execShli d imm s
  | .shri d imm => Sys2Proof.Machine.execShri d imm s
  | .shrai d imm => Sys2Proof.Machine.execShrai d imm s
  | .faddi d imm => Sys2Proof.Machine.execFaddi d imm s
  | .fmuli d imm => Sys2Proof.Machine.execFmuli d imm s
  | .fmovi d imm => Sys2Proof.Machine.execFmovi d imm s
  | .hadd2i d imm => Sys2Proof.Machine.execHadd2i d imm s
  | .hmul2i d imm => Sys2Proof.Machine.execHmul2i d imm s
  | .hmovi2 d imm => Sys2Proof.Machine.execHmovi2 d imm s
  | .qmovi4 d imm => Sys2Proof.Machine.execQmovi4 d imm s
  | .fmini d imm => Sys2Proof.Machine.execFmini d imm s
  | .fmaxi d imm => Sys2Proof.Machine.execFmaxi d imm s
  | .ffma d a b la lb r => Sys2Proof.Machine.execFfma d a b la lb r s
  | .fnma d a b la lb r => Sys2Proof.Machine.execFnma d a b la lb r s
  | .hfma2 d a b la lb => Sys2Proof.Machine.execHfma2 d a b la lb s
  | .imad d a b la lb h => Sys2Proof.Machine.execImad d a b la lb h s
  | .dot4 d a b la lb => Sys2Proof.Machine.execDot4 d a b la lb s
  | .dot8 d a b la lb => Sys2Proof.Machine.execDot8 d a b la lb s
  | .dot2h d a b la lb => Sys2Proof.Machine.execDot2h d a b la lb s
  | .bfi d a b la lb => Sys2Proof.Machine.execBfi d a b la lb s
  | .permb d a b la lb => Sys2Proof.Machine.execPermb d a b la lb s
  | .sel d a b la lb p => Sys2Proof.Machine.execSel d a b la lb p s
  | .fclamp d a b la lb => Sys2Proof.Machine.execFclamp d a b la lb s
  | .imadw d a b la lb => Sys2Proof.Machine.execImadw d a b la lb s
  | .mov d a la => Sys2Proof.Machine.execMov d a la s
  | .fabs d a la => Sys2Proof.Machine.execFabs d a la s
  | .fneg d a la => Sys2Proof.Machine.execFneg d a la s
  | .ineg d a la => Sys2Proof.Machine.execIneg d a la s
  | .not d a la => Sys2Proof.Machine.execNot d a la s
  | .popc d a la => Sys2Proof.Machine.execPopc d a la s
  | .clz d a la => Sys2Proof.Machine.execClz d a la s
  | .brev d a la => Sys2Proof.Machine.execBrev d a la s
  | .frcp d a la => Sys2Proof.Machine.execFrcp d a la s
  | .frsq d a la => Sys2Proof.Machine.execFrsq d a la s
  | .fsqrt d a la => Sys2Proof.Machine.execFsqrt d a la s
  | .fexp2 d a la => Sys2Proof.Machine.execFexp2 d a la s
  | .flog2 d a la => Sys2Proof.Machine.execFlog2 d a la s
  | .fsin d a la => Sys2Proof.Machine.execFsin d a la s
  | .fcos d a la => Sys2Proof.Machine.execFcos d a la s
  | .ftanh d a la => Sys2Proof.Machine.execFtanh d a la s
  | .ftoi d a la => Sys2Proof.Machine.execFtoi d a la s
  | .itof d a la => Sys2Proof.Machine.execItof d a la s
  | .fcvt d a la h => Sys2Proof.Machine.execFcvt d a la h s
  | .hcvt d a la h => Sys2Proof.Machine.execHcvt d a la h s
  | .qcvt d a la b => Sys2Proof.Machine.execQcvt d a la b s
  | .qunp d a la b => Sys2Proof.Machine.execQunp d a la b s
  | .q4cvt d a la n => Sys2Proof.Machine.execQ4cvt d a la n s
  | .q4unp d a la n => Sys2Proof.Machine.execQ4unp d a la n s
  | .frnd d a la r => Sys2Proof.Machine.execFrnd d a la r s
  | .fclass d a la => Sys2Proof.Machine.execFclass d a la s
  | .laneid d => Sys2Proof.Machine.execLaneid d s
  | .icmp p a b la lb c k => Sys2Proof.Machine.execIcmp p a b la lb c k s
  | .icmpn p a b la lb c k => Sys2Proof.Machine.execIcmpn p a b la lb c k s
  | .fcmp p a b la lb c k => Sys2Proof.Machine.execFcmp p a b la lb c k s
  | .testb p a b la lb c => Sys2Proof.Machine.execTestb p a b la lb c s
  | .plog p f q r c => Sys2Proof.Machine.execPlog p f q r c s
  | .scan d a r la k => Sys2Proof.Machine.execScan d a r la k s
  | .scanx d a r la k => Sys2Proof.Machine.execScanx d a r la k s
  | .reduce a r la k => Sys2Proof.Machine.execReduce a r la k s
  | .prevLane d a r la => Sys2Proof.Machine.execPrevLane d a r la s
  | .nextLane d a r la => Sys2Proof.Machine.execNextLane d a r la s
  | .shup d a r la g => Sys2Proof.Machine.execShup d a r la g s
  | .shdn d a r la g => Sys2Proof.Machine.execShdn d a r la g s
  | .bfly d a r la g => Sys2Proof.Machine.execBfly d a r la g s
  | .perm d a r la g => Sys2Proof.Machine.execPerm d a r la g s
  | .bcastl d a r la g => Sys2Proof.Machine.execBcastl d a r la g s
  | .vote p r => Sys2Proof.Machine.execVote p r s
  | .matchEq d a r la => Sys2Proof.Machine.execMatchEq d a r la s
  | .gets d r => Sys2Proof.Machine.execGets d r s
  | .puts a r la => Sys2Proof.Machine.execPuts a r la s
  | .ldg8n t a r la imm => Sys2Proof.Machine.execLdg8n t a r la imm s
  | .ldg8i t a r la imm => Sys2Proof.Machine.execLdg8i t a r la imm s
  | .ldg16n t a r la imm => Sys2Proof.Machine.execLdg16n t a r la imm s
  | .ldg16i t a r la imm => Sys2Proof.Machine.execLdg16i t a r la imm s
  | .ldg32 t a r la imm => Sys2Proof.Machine.execLdg32 t a r la imm s
  | .ldg64 t a r la imm => Sys2Proof.Machine.execLdg64 t a r la imm s
  | .ldg128 t a r la imm => Sys2Proof.Machine.execLdg128 t a r la imm s
  | .stg8 t a r la imm => Sys2Proof.Machine.execStg8 t a r la imm s
  | .stg16 t a r la imm => Sys2Proof.Machine.execStg16 t a r la imm s
  | .stg32 t a r la imm => Sys2Proof.Machine.execStg32 t a r la imm s
  | .stg64 t a r la imm => Sys2Proof.Machine.execStg64 t a r la imm s
  | .stg128 t a r la imm => Sys2Proof.Machine.execStg128 t a r la imm s
  | .ldp32 t a r la imm => Sys2Proof.Machine.execLdp32 t a r la imm s
  | .ldp64 t a r la imm => Sys2Proof.Machine.execLdp64 t a r la imm s
  | .ldp128 t a r la imm => Sys2Proof.Machine.execLdp128 t a r la imm s
  | .stp32 t a r la imm => Sys2Proof.Machine.execStp32 t a r la imm s
  | .stp64 t a r la imm => Sys2Proof.Machine.execStp64 t a r la imm s
  | .stp128 t a r la imm => Sys2Proof.Machine.execStp128 t a r la imm s
  | .atomg t a r la c => Sys2Proof.Machine.execAtomg t a r la c s
  | .redg t a r la c => Sys2Proof.Machine.execRedg t a r la c s
  | .atomp t a r la c => Sys2Proof.Machine.execAtomp t a r la c s
  | .prefg a r la imm => Sys2Proof.Machine.execPrefg a r la imm s
  | .lda32 t a r la c => Sys2Proof.Machine.execLda32 t a r la c s
  | .lda64 t a r la c => Sys2Proof.Machine.execLda64 t a r la c s
  | .stl32 t a r la c => Sys2Proof.Machine.execStl32 t a r la c s
  | .stl64 t a r la c => Sys2Proof.Machine.execStl64 t a r la c s
  | .ldf32 t a la imm => Sys2Proof.Machine.execLdf32 t a la imm s
  | .stf32 t a la imm => Sys2Proof.Machine.execStf32 t a la imm s
  | .guard p n w => Sys2Proof.Machine.execGuard p n w s
  | .sadd d a b => Sys2Proof.Machine.execSadd d a b s
  | .ssub d a b => Sys2Proof.Machine.execSsub d a b s
  | .smul d a b => Sys2Proof.Machine.execSmul d a b s
  | .smulh d a b k => Sys2Proof.Machine.execSmulh d a b k s
  | .smin d a b k => Sys2Proof.Machine.execSmin d a b k s
  | .smax d a b k => Sys2Proof.Machine.execSmax d a b k s
  | .sand d a b => Sys2Proof.Machine.execSand d a b s
  | .sor d a b => Sys2Proof.Machine.execSor d a b s
  | .sxor d a b => Sys2Proof.Machine.execSxor d a b s
  | .sshl d a b => Sys2Proof.Machine.execSshl d a b s
  | .sshr d a b => Sys2Proof.Machine.execSshr d a b s
  | .sshra d a b => Sys2Proof.Machine.execSshra d a b s
  | .sadd64 d a b => Sys2Proof.Machine.execSadd64 d a b s
  | .scmp d a b k => Sys2Proof.Machine.execScmp d a b k s
  | .sfadd d a b => Sys2Proof.Machine.execSfadd d a b s
  | .sfmul d a b => Sys2Proof.Machine.execSfmul d a b s
  | .sdivn d a b => Sys2Proof.Machine.execSdivn d a b s
  | .spopc d a => Sys2Proof.Machine.execSpopc d a s
  | .sff1 d a => Sys2Proof.Machine.execSff1 d a s
  | .smovi d imm => Sys2Proof.Machine.execSmovi d imm s
  | .smovhi d imm => Sys2Proof.Machine.execSmovhi d imm s
  | .saddi d imm => Sys2Proof.Machine.execSaddi d imm s
  | .sandi d imm => Sys2Proof.Machine.execSandi d imm s
  | .sori d imm => Sys2Proof.Machine.execSori d imm s
  | .sxori d imm => Sys2Proof.Machine.execSxori d imm s
  | .sshli d imm => Sys2Proof.Machine.execSshli d imm s
  | .sshri d imm => Sys2Proof.Machine.execSshri d imm s
  | .smuli d imm => Sys2Proof.Machine.execSmuli d imm s
  | .smov32 d imm => Sys2Proof.Machine.execSmov32 d imm s
  | .braL imm => Sys2Proof.Machine.execBraL imm s
  | .callL d imm => Sys2Proof.Machine.execCallL d imm s
  | .sadd32 d imm => Sys2Proof.Machine.execSadd32 d imm s
  | .bra o => Sys2Proof.Machine.execBra o s
  | .bz a o => Sys2Proof.Machine.execBz a o s
  | .bnz a o => Sys2Proof.Machine.execBnz a o s
  | .call a o => Sys2Proof.Machine.execCall a o s
  | .brx a => Sys2Proof.Machine.execBrx a s
  | .bdiv p o => Sys2Proof.Machine.execBdiv p o s
  | .bidx a o => Sys2Proof.Machine.execBidx a o s
  | .jset o => Sys2Proof.Machine.execJset o s
  | .bvote t p o => Sys2Proof.Machine.execBvote t p o s
  | .trap c => Sys2Proof.Machine.execTrap c s
  | .bar b r n => Sys2Proof.Machine.execBar b r n s
  | .bara b r n => Sys2Proof.Machine.execBara b r n s
  | .barw r n => Sys2Proof.Machine.execBarw r n s
  | .fence k c => Sys2Proof.Machine.execFence k c s
  | .waitm a b imm => Sys2Proof.Machine.execWaitm a b imm s
  | .sleep imm => Sys2Proof.Machine.execSleep imm s
  | .getsr a n => Sys2Proof.Machine.execGetsr a n s
  | .setsr a n => Sys2Proof.Machine.execSetsr a n s
  | .fmtw a => Sys2Proof.Machine.execFmtw a s
  | .fmtwRm r => Sys2Proof.Machine.execFmtwRm r s
  | .hclaim h => Sys2Proof.Machine.execHclaim h s
  | .hrel h => Sys2Proof.Machine.execHrel h s
  | .hwr a h => Sys2Proof.Machine.execHwr a h s
  | .hrd a h => Sys2Proof.Machine.execHrd a h s
  | .syscall imm => Sys2Proof.Machine.execSyscall imm s
  | .talloc d k => Sys2Proof.Machine.execTalloc d k s
  | .tfree d => Sys2Proof.Machine.execTfree d s
  | .tgive a g => Sys2Proof.Machine.execTgive a g s
  | .ttake d g => Sys2Proof.Machine.execTtake d g s
  | .tzero d => Sys2Proof.Machine.execTzero d s
  | .mma d a b w g r => Sys2Proof.Machine.execMma d a b w g r s
  | .mmas d a b g r => Sys2Proof.Machine.execMmas d a b g r s
  | .tcomp d a b => Sys2Proof.Machine.execTcomp d a b s
  | .tsoft d a b f c => Sys2Proof.Machine.execTsoft d a b f c s
  | .tscale d a b n => Sys2Proof.Machine.execTscale d a b n s
  | .tnorm d a b => Sys2Proof.Machine.execTnorm d a b s
  | .trowred d a k => Sys2Proof.Machine.execTrowred d a k s
  | .tew d a b c f k => Sys2Proof.Machine.execTew d a b c f k s
  | .ttov a b r => Sys2Proof.Machine.execTtov a b r s
  | .vtot d b r => Sys2Proof.Machine.execVtot d b r s
  | .tarv a c => Sys2Proof.Machine.execTarv a c s
  | .tawt a p => Sys2Proof.Machine.execTawt a p s
  | .tstat a r => Sys2Proof.Machine.execTstat a r s
  | .sigq d a b => Sys2Proof.Machine.execSigq d a b s
  | .cpy q a b d => Sys2Proof.Machine.execCpy q a b d s
  | .tld q a t r => Sys2Proof.Machine.execTld q a t r s
  | .tst q a t r => Sys2Proof.Machine.execTst q a t r s
  | .wbld q a e r w c => Sys2Proof.Machine.execWbld q a e r w c s
  | .gath q a t vblk l => Sys2Proof.Machine.execGath q a t vblk l s
  | .sigf q a b r => Sys2Proof.Machine.execSigf q a b r s
  | .cpyf q a b d => Sys2Proof.Machine.execCpyf q a b d s
  | .mcst q a b => Sys2Proof.Machine.execMcst q a b s
  | .coll q a k => Sys2Proof.Machine.execColl q a k s
  | .enc q a b => Sys2Proof.Machine.execEnc q a b s
  | .batch q e => Sys2Proof.Machine.execBatch q e s
  | .waittl q l => Sys2Proof.Machine.execWaittl q l s
  | .testtl q a l => Sys2Proof.Machine.execTesttl q a l s
  | .cancel q => Sys2Proof.Machine.execCancel q s
  | .qmov q a n f => Sys2Proof.Machine.execQmov q a n f s
  | .pagein q a => Sys2Proof.Machine.execPagein q a s
  | .rstepBegin a b => Sys2Proof.Machine.execRstepBegin a b s
  | .rstepEnd a => Sys2Proof.Machine.execRstepEnd a s
  | .rwiden a w => Sys2Proof.Machine.execRwiden a w s
  | .rnarrow a w => Sys2Proof.Machine.execRnarrow a w s
  | .rview a b => Sys2Proof.Machine.execRview a b s
  | .rpub q a t => Sys2Proof.Machine.execRpub q a t s
  | .kvalloc a b => Sys2Proof.Machine.execKvalloc a b s
  | .kvrel q a => Sys2Proof.Machine.execKvrel q a s
  | .kvapp q a t => Sys2Proof.Machine.execKvapp q a t s
  | .kvappMem q a => Sys2Proof.Machine.execKvappMem q a s
  | .kvflush q a => Sys2Proof.Machine.execKvflush q a s
  | .join => Sys2Proof.Machine.execJoin s
  | .exit => Sys2Proof.Machine.execExit s
  | .joint => Sys2Proof.Machine.execJoint s
  | .bkpt => Sys2Proof.Machine.execBkpt s
  | .yield => Sys2Proof.Machine.execYield s
  | .snap => Sys2Proof.Machine.execSnap s
  | .resume => Sys2Proof.Machine.execResume s
  | .longLatencyResult => Sys2Proof.Machine.execLongLatencyResult s
  | .loadDataReturn => Sys2Proof.Machine.execLoadDataReturn s
  | .storePerformed => Sys2Proof.Machine.execStorePerformed s
  | .markerRelease => Sys2Proof.Machine.execMarkerRelease s
  | .jointTimeout => Sys2Proof.Machine.execJointTimeout s
  | .memberTimeout => Sys2Proof.Machine.execMemberTimeout s
  | .waitmWake => Sys2Proof.Machine.execWaitmWake s
  | .sleepExpiry => Sys2Proof.Machine.execSleepExpiry s
  | .yieldExpiry => Sys2Proof.Machine.execYieldExpiry s
  | .syscallDone => Sys2Proof.Machine.execSyscallDone s
  | .translationWalk => Sys2Proof.Machine.execTranslationWalk s
  | .engineOpStart => Sys2Proof.Machine.execEngineOpStart s
  | .matrixKstep => Sys2Proof.Machine.execMatrixKstep s
  | .engineOpComplete => Sys2Proof.Machine.execEngineOpComplete s
  | .tileSlotRelease => Sys2Proof.Machine.execTileSlotRelease s
  | .blockRelease => Sys2Proof.Machine.execBlockRelease s
  | .teamHalt => Sys2Proof.Machine.execTeamHalt s
  | .handlerStart => Sys2Proof.Machine.execHandlerStart s
  | .teamRetire => Sys2Proof.Machine.execTeamRetire s
  | .preemption => Sys2Proof.Machine.execPreemption s
  | .registerEvict => Sys2Proof.Machine.execRegisterEvict s
  | .waitmEvict => Sys2Proof.Machine.execWaitmEvict s
  | .readmit => Sys2Proof.Machine.execReadmit s
  | .doorbell => Sys2Proof.Machine.execDoorbell s
  | .nop => Sys2Proof.Machine.execNop s
  | .launch => Sys2Proof.Machine.execLaunch s
  | .rlaunch => Sys2Proof.Machine.execRlaunch s
  | .copy => Sys2Proof.Machine.execCopy s
  | .signal => Sys2Proof.Machine.execSignal s
  | .wait => Sys2Proof.Machine.execWait s
  | .waitSatisfied => Sys2Proof.Machine.execWaitSatisfied s
  | .cond => Sys2Proof.Machine.execCond s
  | .contract => Sys2Proof.Machine.execContract s
  | .mark => Sys2Proof.Machine.execMark s
  | .packetStart => Sys2Proof.Machine.execPacketStart s
  | .clusterPlace => Sys2Proof.Machine.execClusterPlace s
  | .coopReserve => Sys2Proof.Machine.execCoopReserve s
  | .teamStart => Sys2Proof.Machine.execTeamStart s
  | .contractPeriod => Sys2Proof.Machine.execContractPeriod s
  | .contractBudget => Sys2Proof.Machine.execContractBudget s
  | .contractDeadline => Sys2Proof.Machine.execContractDeadline s
  | .viewCommit => Sys2Proof.Machine.execViewCommit s
  | .migratePage => Sys2Proof.Machine.execMigratePage s
  | .migrationCounterHalve => Sys2Proof.Machine.execMigrationCounterHalve s
  | .patrolScrub => Sys2Proof.Machine.execPatrolScrub s
  | .linkMessage => Sys2Proof.Machine.execLinkMessage s
  | .adminDoorbell => Sys2Proof.Machine.execAdminDoorbell s
  | .bind => Sys2Proof.Machine.execBind s
  | .unbind => Sys2Proof.Machine.execUnbind s
  | .queueSet => Sys2Proof.Machine.execQueueSet s
  | .queueReset => Sys2Proof.Machine.execQueueReset s
  | .tableUpdate => Sys2Proof.Machine.execTableUpdate s
  | .faultReply => Sys2Proof.Machine.execFaultReply s
  | .savePool => Sys2Proof.Machine.execSavePool s
  | .blockPool => Sys2Proof.Machine.execBlockPool s
  | .sequenceRetire => Sys2Proof.Machine.execSequenceRetire s
  | .demote => Sys2Proof.Machine.execDemote s
  | .policy => Sys2Proof.Machine.execPolicy s
  | .tailShare => Sys2Proof.Machine.execTailShare s
  | .snapArm => Sys2Proof.Machine.execSnapArm s
  | .preEmpt => Sys2Proof.Machine.execPreEmpt s
  | .debug => Sys2Proof.Machine.execDebug s
  | .fwWrite => Sys2Proof.Machine.execFwWrite s
  | .fwActivate => Sys2Proof.Machine.execFwActivate s
  | .svnCommit => Sys2Proof.Machine.execSvnCommit s
  | .attest => Sys2Proof.Machine.execAttest s
  | .identity => Sys2Proof.Machine.execIdentity s
  | .packageReset => Sys2Proof.Machine.execPackageReset s
  | .recoveryGo => Sys2Proof.Machine.execRecoveryGo s
  | .powerOff => Sys2Proof.Machine.execPowerOff s
  | .powerCap => Sys2Proof.Machine.execPowerCap s
  | .thermalCap => Sys2Proof.Machine.execThermalCap s
  | .thermalCapRelease => Sys2Proof.Machine.execThermalCapRelease s
  | .thermalShutdown => Sys2Proof.Machine.execThermalShutdown s
  | .cxlPortFailure => Sys2Proof.Machine.execCxlPortFailure s
  | .snapshotTrigger => Sys2Proof.Machine.execSnapshotTrigger s
  | .fabricContextCreate => Sys2Proof.Machine.execFabricContextCreate s
  | .fabricContextDestroy => Sys2Proof.Machine.execFabricContextDestroy s
  | .exportTableWrite => Sys2Proof.Machine.execExportTableWrite s
  | .sessionOpen => Sys2Proof.Machine.execSessionOpen s
  | .sessionClose => Sys2Proof.Machine.execSessionClose s
  | .registerWrite => Sys2Proof.Machine.execRegisterWrite s
  | .flitReceive => Sys2Proof.Machine.execFlitReceive s
  | .linkRetrain => Sys2Proof.Machine.execLinkRetrain s
  | .lossOfSignal => Sys2Proof.Machine.execLossOfSignal s
  | .configurationRecord => Sys2Proof.Machine.execConfigurationRecord s
  | .portReenable => Sys2Proof.Machine.execPortReenable s
  | .read => Sys2Proof.Machine.execRead s
  | .write => Sys2Proof.Machine.execWrite s
  | .atomic => Sys2Proof.Machine.execAtomic s
  | .reduction => Sys2Proof.Machine.execReduction s
  | .multicastWrite => Sys2Proof.Machine.execMulticastWrite s
  | .multicastReduction => Sys2Proof.Machine.execMulticastReduction s
  | .trimmedHeader => Sys2Proof.Machine.execTrimmedHeader s
  | .readResponse => Sys2Proof.Machine.execReadResponse s
  | .ack => Sys2Proof.Machine.execAck s
  | .atomicResponse => Sys2Proof.Machine.execAtomicResponse s
  | .negative => Sys2Proof.Machine.execNegative s
  | .resendRequest => Sys2Proof.Machine.execResendRequest s
  | .resend => Sys2Proof.Machine.execResend s
  | .aggregatedAck => Sys2Proof.Machine.execAggregatedAck s
  | .collectiveResult => Sys2Proof.Machine.execCollectiveResult s
  | .fabricTimeout => Sys2Proof.Machine.execFabricTimeout s
  | .multicastTimeout => Sys2Proof.Machine.execMulticastTimeout s
  | .collectiveTimeout => Sys2Proof.Machine.execCollectiveTimeout s
  | .softError => Sys2Proof.Machine.execSoftError s
  | .hostLinkDown => Sys2Proof.Machine.execHostLinkDown s
  | .hostLinkUp => Sys2Proof.Machine.execHostLinkUp s
  | .holdEnd => Sys2Proof.Machine.execHoldEnd s
  | .reservedPacketType => Sys2Proof.Machine.execReservedPacketType s
  | .atomicResultReturn => Sys2Proof.Machine.execAtomicResultReturn s
  | .padWordWritten => Sys2Proof.Machine.execPadWordWritten s
  | .viewRegistersWritten => Sys2Proof.Machine.execViewRegistersWritten s

end Sys2Proof.Machine
end

