-- ==== Sys2Proof/Machine/Wake.lean ====
section
/-! DEFINITION. What follows from a step without an event of its own: arrivals that are recorded, conditions that end a wait (R33), readers
that find their operations complete, retirements (R34), and the device's own queues and links going on. -/
namespace Sys2Proof.Machine

/-- Change the state for every group of every team that is on a core. -/
def State.eachGroup (f : Nat → Nat → State → State) (s : State) : State :=
  s.teams.foldl (fun s t => if t.2.here then t.2.groups.foldl (fun s g => f t.1 g.1 s) s else s) s

/-! ### Kind-L work (R69, R139, R150, R165, R166, R199) -/

/-- TTOV has read its row (R166): no earlier operation of the core that writes the slot is outstanding. -/
def State.ttovDone (s : State) (core slot row ord : Nat) (act : Mask) (o : LOp) : Option LOp :=
  if s.earlierOp core ord fun x => x.cmd.writes.contains slot then none
  else
    let x := (s.slot? core slot).getD TileSlot.empty
    let word (k : Nat) : Word := bytesWord ((List.range 4).map fun i => x.bytes.getD (256 * row + 4 * k + i) 0)
    let bad (k : Nat) : Bool := x.bad.contains (32 * row + k / 2)
    let give (o : LOp) (k : Nat) : LOp := o.giveLane k [word k, word (32 + k)] false
    let o := act.lanes.foldl give { o with kind := .unit }
    let taint (i : Nat) (r : VReg) : VReg :=
      { r with bad := r.bad ||| Mask.ofLanes (act.lanes.filter fun k => bad (32 * i + k)) }
    some { o with nv := o.nv.mapIdx taint }

/-- TSTAT's two words (R165). -/
def tstatWords (slot : Nat) (t : TileSlot) : List Word :=
  [BitVec.ofNat 32 (slot + 256 * t.gen + 65536 * t.kind), BitVec.ofNat 32 (t.p + 65536 * t.failed.toNat)]

/-- Every access issued before an RSTEP.end is performed at package scope, the step's begin has been answered, and every engine operation of
the step is complete (R199, R257). -/
def State.stepOver (s : State) (t g : Nat) (G : Group) (o : LOp) (ord : Nat) : Bool :=
  let begun := G.ops.all fun x => !(x.id < o.id && match x.kind with | .view true _ _ => true | _ => false)
  begun && s.allDone t g G o.id 4 && match G.step with
    | some r => s.eops.all fun x => !(x.2.team == t && x.2.grp == g && r.ord < x.2.ord && x.2.ord < ord)
    | none => true

/-- Look at one outstanding instruction: what it can send, and whether what it waited for has come. -/
def State.lookOp (t g : Nat) (s : State) (id : Nat) : State :=
  let s := s.trySend t g id
  match s.group? t g with
  | none => s
  | some G => match G.op? id with
    | none => s
    | some o => match o.kind with
      | .ttov core slot row ord act => match s.ttovDone core slot row ord act o with
        | some o => (s.readTiles core [slot]).modOp t g id fun _ => o
        | none => s
      | .tstat core slot d ord =>
        if s.earlierOp core ord (fun x => x.cmd.names.contains slot) || G.ops.any (fun x => x.id < id && x.sdests.any o.sdests.contains) then s
        else
          let ws := tstatWords slot ((s.slot? core slot).getD TileSlot.empty)
          s.modGroup t g fun G => ({ G with ops := G.ops.filter fun x => x.id != id }.setWords d ws).sweep
      | .stepEnd _ ord =>
        if s.stepOver t g G o ord then
          (s.closeStep t g).modGroup t g fun G => Group.sweep { G with ops := G.ops.filter fun x => x.id != id }
        else s
      | _ => s

/-- Look at a group's outstanding instructions, and complete those for which nothing is to come any more: their lanes have been switched off
(R139, R143). -/
def State.lookOps (t g : Nat) (s : State) : State :=
  match s.group? t g with
  | none => s
  | some G =>
    if G.ops.isEmpty then s else ((G.ops.map LOp.id).foldl (State.lookOp t g) s).modGroup t g Group.sweep

/-! ### Arrivals and retirement (R34, R120 to R122, R182) -/

/-- Record the barrier arrivals of a group whose earlier accesses are performed (R122, R249), in order: a phase that one of them completes is
over before the next (R121). -/
def State.recordArrivals (s : State) (t g : Nat) : State :=
  match s.group? t g with
  | none => s
  | some G =>
    let due := G.arrive.filter fun a => s.allDone t g G a.upto a.scope
    let rest := G.arrive.filter fun a => !s.allDone t g G a.upto a.scope
    if due.isEmpty then s
    else due.foldl (fun s a => (s.arrive t g a).settleBarriers) (s.modGroup t g fun G => { G with arrive := rest })

/-- Record a tile arrival once the operations that its group issued before it on the slot are complete (R182). -/
def State.tileArrivals (s : State) (core : Nat) : State :=
  let mayArrive (a : TileArrival) : Bool :=
    ((s.teams.find? a.team).map Team.here).getD true &&
      !s.earlierOp core a.ord (fun x => x.team == a.team && x.grp == a.grp && x.cmd.names.contains a.slot) &&
      !(((s.group? a.team a.grp).map Group.ops).getD []).any fun o => match o.kind with
        | .ttov _ sl _ n _ => sl == a.slot && n < a.ord
        | .tstat _ sl _ n => sl == a.slot && n < a.ord
        | _ => false
  let due := (s.core core).arrivals.filter mayArrive
  if due.isEmpty then s
  else
    let s := s.modCore core fun c => { c with arrivals := c.arrivals.filter fun a => !due.contains a }
    due.foldl (fun s a => s.modSlot core a.slot fun t => t.arrive a.target) s

/-- A group without lanes retires when its kind-L work is complete (R34); a handler left without lanes has ended as by EXIT (R280). -/
def State.maybeRetire (t g : Nat) (s : State) : State :=
  match s.group? t g with
  | none => s
  | some G =>
    if G.retired || G.alive != 0 then s
    else if G.privileged then s.failTeam t (G.fr.fcause.toNat % 256)
    else if G.ops.any G.outstanding then s else s.retireGroup t g

/-! ### Waits (R33) -/

/-- The condition that a wait is for holds. -/
def State.waitOver (s : State) (t : Nat) (T : Team) (g : Nat) (G : Group) : Wait → Bool
  | .none => true
  | .barrier clu n phase => phase ≤ s.phaseOf T clu n
  | .fence loads stores scope upto => s.fenceOver t g G loads stores scope upto
  | .settle upto => s.allDone t g G upto 5
  | .future c n => s.futureDone c n
  | .regs n => s.alloc T G [] n != .wait
  | .talloc _ => T.slots.length < T.quota && (s.freeSlot T.core).isSome
  | .latchFull o giver => match T.groups.find? o with
    | some O => (O.latches.find? giver).isNone
    | none => true
  | .latchEmpty o giver =>
    ((T.groups.find? o).any fun O => (O.latches.find? giver).isSome) || (T.groups.find? giver).any Group.retired
  | .tawt slot phase => match s.slot? T.core slot with
    | some x => x.alloc && x.team == t && phaseReached x.p phase
    | none => false
  | .hclaim h => (T.hearthReg h).owner == some g
  | .rope rec =>
    !(G.step.any RopeStep.closing) && !((s.seqs.find? (seqKey T.space rec)).any Seq.commit)
  | .ctxFull c => !((s.ectxs.find? c).any ECtx.full)
  | .walk tok => (s.parked.find? tok).isNone
  | .exitMarker _ | .monitor _ _ _ _ | .sleep _ | .yield _ _ _ | .syscall _ | .member _ _ _ _ _ | .memberLost _ _ | .arrival _ | .knot | .declined => false

/-- A free hearth register goes to the lowest group that waits for it (R24, R128). -/
def Team.grantHearth (T : Team) (h : Nat) : Team :=
  if (T.hearthReg h).owner.isSome then T
  else
    let waits (g : Nat × Group) : Bool := g.2.splits.any fun e => e.2.st == .blocked && e.2.wait == .hclaim h
    match List.find? waits T.groups with
    | some g => { T with hearth := T.hearth.insert h { T.hearthReg h with owner := some g.1, claim := (0, 0) } }
    | none => T

def Team.grantHearths (T : Team) : Team :=
  let wanted := T.groups.flatMap fun g => g.2.splits.filterMap fun e => match e.2.wait with
    | .hclaim h => some h
    | _ => none
  wanted.foldl Team.grantHearth T

/-- End the waits of a group's BLOCKED splits whose condition holds. -/
def State.endWaits (t g : Nat) (s : State) : State :=
  match s.teams.find? t with
  | none => s
  | some T => match T.groups.find? g with
    | none => s
    | some G =>
      let wake (e : Split) : Split := if e.st = .blocked ∧ s.waitOver t T g G e.wait then e.release else e
      if G.splits.any fun e => e.2.st == .blocked then
        s.modGroup t g fun G => { G with splits := List.map (fun (e : Nat × Split) => (e.1, wake e.2)) G.splits }
      else s

/-! ### Faults of waits (R104, R162, R174) -/

/-- Fault cause `cause` at a waiting split, whose instruction is issued again after a RESUME. -/
def State.raiseWaiting (s : State) (t g i : Nat) (G : Group) (e : Split) (cause : Cause) : State :=
  let s := s.modSplit t g i fun e => { e with wait := .none, st := if e.st = .blocked then .ready else e.st,
                                              back := if e.back = .blocked then .ready else e.back }
  s.deliver t g
    { op := 0, split := i, pc := e.pc, cause := cause, lanes := e.act, detail := 0, addr := 0, pix := 0, issue := G.issued,
      held := false, opn := 0, opc := 0, fit := [] }

/-- What a split that waits at a rendezvous may never see any more (R104): the lanes that MEMBER reports; nothing once it executes. -/
def Group.memberLost (G : Group) (i : Nat) (e : Split) : Option (Dword × Mask) :=
  match e.wait with
  | .memberLost pc lanes => some (pc, lanes)
  | .member pc mm _ _ _ => if G.executing pc mm then none else
    let gone := mm &&& ~~~G.alive
    let wrong := (G.memberSet i mm).filter fun x =>
      x.1 != i && (x.2.st == .arrived || match x.2.memberAt with | some y => y != (pc, mm) | none => false)
    if gone ≠ 0 then some (pc, gone) else if wrong ≠ [] then some (pc, heldLanes mm wrong) else none
  | _ => none

def State.checkMembers (t g : Nat) (s : State) : State :=
  match s.group? t g with
  | none => s
  | some G =>
    let lost (e : Nat × Split) : Option (Nat × Dword × Mask) :=
      if e.2.st = .blocked then (G.memberLost e.1 e.2).map fun x => (e.1, x) else none
    match G.splits.findSome? lost with
    | some (i, pc, lanes) => s.raiseMember t g i G pc lanes
    | none => s

/-- A group can do nothing but wait in TALLOC: its place in the order of blocking (R162). -/
def Group.inTalloc (G : Group) : Option Nat :=
  let only (e : Nat × Split) : Bool := match e.2.st, e.2.wait with
    | .blocked, .talloc _ => e.2.mark.isNone
    | .parent, _ | .arrived, _ => true
    | _, _ => false
  if G.splits.all only then
    G.splits.foldl (fun b e => match e.2.st, e.2.wait with
      | .blocked, .talloc n => some (max n (b.getD 0))
      | _, _ => b) none
  else none

/-- R162: every group of a team is BLOCKED on its quota: the one that blocked last raises QUOTA. -/
def State.checkQuota (s : State) (t : Nat) : State :=
  match s.teams.find? t with
  | none => s
  | some T =>
    let live := T.groups.filter fun g => !g.2.retired
    if T.st != .running || T.slots.length < T.quota || live.isEmpty || !live.all fun g => g.2.inTalloc.isSome then s
    else
      let last := live.foldl (fun n g => max n (g.2.inTalloc.getD 0)) 0
      let at_ (g : Nat × Group) : Option (Nat × Group × Nat × Split) :=
        (List.find? (fun (e : Nat × Split) => e.2.wait == .talloc last) g.2.splits).map fun e => (g.1, g.2, e.1, e.2)
      match live.findSome? at_ with
      | some (g, G, i, e) => s.raiseWaiting t g i G e .quota
      | none => s

/-- R174: a listed group has retired: each group that waits for it in the knot raises BRAID, the lowest first. -/
def State.checkKnot (s : State) (core : Nat) : State :=
  let lost (k : KnotMember) : Bool := (List.range 32).any fun g => k.brd.getLsbD g && (s.group? k.team g).any Group.retired
  let ks := (s.core core).knot.filter lost
  if ks.isEmpty then s
  else
    let s := s.modCore core fun c => { c with knot := c.knot.filter fun k => !lost k }
    let order := (List.range 32).flatMap fun g => ks.filter fun k => k.grp == g
    order.foldl (fun s k => match s.group? k.team k.grp, s.split? k.team k.grp k.split with
      | some G, some e => s.raiseWaiting k.team k.grp k.split G e .braid
      | _, _ => s) s

/-! ### The rest of the device -/

/-- A core whose matrix engine has nothing to do starts from slot 0 next, whatever took the work away (R175). -/
def State.idleMatrix (s : State) (core : Nat) : State := if (s.core core).served.isNone then s else s.idleEngine core

/-- A drained core's weight-buffer entries are unloaded (R222). -/
def State.unload (s : State) (core : Nat) : State :=
  if (s.core core).weights.isEmpty || !s.drained core then s else s.modCore core fun c => { c with weights := [] }

/-- A queue whose doorbell has been rung reads its pull word (R259). -/
def State.pullBells (s : State) : State :=
  s.queues.foldl (fun s q => if q.2.bell && !q.2.stopped && q.2.miss.isNone then s.pull q.1 else s) s

/-- Fabric operations that run send the next of what they still have to send. -/
def State.sendOps (s : State) : State :=
  s.eops.foldl (fun s x => if x.2.cmd.isFabric && s.opHere x.2 && x.2.maySend x.1 then s.sendMore x.1 x.2 else s) s

/-- A restored team whose transaction records have been replayed may issue (R287). -/
def Team.settleReplay (T : Team) : Team := { T with replay := T.replay && T.groups.any fun g => g.2.unwalked }

/-- The host's side: sessions, links, windows, runs, the admin ring (R315, R344, R345, R350, R353, R362). -/
def State.settleDevice (s : State) : State :=
  let s := s.closeSessions.settleLinks.settleWindows.settleRuns.settleLate
  if s.pkg.adminBell && s.pkg.served then s.serveAdmin else s

/-- All that follows from a step. -/
def State.wake (s : State) : State :=
  let s := s.eachGroup State.lookOps
  let s := s.teams.foldl (fun s t => t.2.groups.foldl (fun s g => s.recordArrivals t.1 g.1) s) s
  let s := s.eachGroup State.maybeRetire
  let s := s.settleBarriers
  let s := s.cores.foldl (fun s c => (((s.tileArrivals c.1).checkKnot c.1).unload c.1).idleMatrix c.1) s
  let s := { s with teams := List.map (fun (t : Nat × Team) => (t.1, t.2.grantHearths.settleReplay)) s.teams }
  let s := s.eachGroup State.endWaits
  let s := s.eachGroup State.checkMembers
  let s := s.teams.foldl (fun s t => s.checkQuota t.1) s
  (s.pullBells.sendOps).settleDevice

end Sys2Proof.Machine
end

