-- ==== Sys2Proof/Machine/Fetch.lean ====
section
/-! DEFINITION. What happens next: the issue arbiter (R32, R274), the fetch of an instruction (R57, R113), the events that the device
brings about by itself, and what closes a step. -/
namespace Sys2Proof.Machine

/-! ### The issue arbiter (R32, R274, R278, R281) -/

/-- What can issue, or go on in its pipe: its core and place in the ranking of R274, its team, group and split, whether it continues an
issued instruction (R105, R283), whether its word needs a group pipe (R106). -/
structure Candidate where
  core : Nat
  key : List Nat
  team : Nat
  grp : Nat
  split : Nat
  continues : Bool
  pipe : Bool

/-- The word at the issuing address is a group word (D = 1), so far as it can be fetched. -/
def State.groupAhead (s : State) (space : Nat) (priv : Bool) (pc : Dword) : Bool :=
  match s.translate space pc.toNat .fetch priv with
  | .hit k => fld (s.nat k 4) 31 1 == 1
  | _ => false

/-- The split of a group whose lane instruction goes on in its pipe: that of the earliest issue (R283). While the team halts, walks run on to
their stop (R278). -/
def State.walkingSplit (s : State) (t : Nat) (T : Team) (g : Nat) (G : Group) : Option (Nat × Split) :=
  let no (e : Nat × Split) : Nat := (e.2.prog.map Progress.issue).getD 0
  if s.groupIssues t T g G || T.st.isHalting then
    (List.filter (s.canWalk t g) G.splits).foldl (fun (b : Option (Nat × Split)) e => match b with
      | none => some e
      | some x => if no e < no x then some e else b) none
  else none

/-- The lowest-numbered READY entry of a group that can issue (R32). -/
def State.freshSplit (s : State) (t : Nat) (T : Team) (g : Nat) (G : Group) : Option (Nat × Split) :=
  if s.groupIssues t T g G then List.find? (s.canIssue t g) G.splits else none

/-- The split of a group that goes on, and whether it continues an issued instruction: one whose lane instruction is still in its pipe, where
no other is to overtake it; else one that can issue. -/
def State.nextSplit (s : State) (t : Nat) (T : Team) (g : Nat) (G : Group) (past : Bool) : Option (Bool × Nat × Split) :=
  let walking := (s.walkingSplit t T g G).map fun e => (true, e)
  let fresh := (s.freshSplit t T g G).map fun e => (false, e)
  if past then fresh.or walking else walking.or fresh

/-- The candidates. -/
def State.candidates (s : State) (past : Bool) : List Candidate :=
  s.teams.flatMap fun t => t.2.groups.filterMap fun g =>
    (s.nextSplit t.1 t.2 g.1 g.2 past).map fun x =>
      { core := t.2.core, key := [4 - s.levelOf t.2, g.2.lastCycle, g.2.slot], team := t.1, grp := g.1, split := x.2.1
        continues := x.1
        pipe := !x.1 && s.groupAhead t.2.space g.2.privileged x.2.2.pc }

/-- The first in the ranking. -/
def firstRanked (cs : List Candidate) : Option Candidate :=
  cs.foldl (fun b c => match b with
    | none => some c
    | some x => if keyLt c.key x.key then some c else b) none

/-- A candidate may still issue in a core's present cycle (R274): at most four do, one for each group, two of them group words. -/
def Core.open (c : Core) (x : Candidate) : Bool :=
  x.continues || !c.turn.contains (x.team, x.grp) && c.turn.length < 4 && !(x.pipe && 2 ≤ c.pipes)

/-- How often others of its core have gone before a group that could have issued. -/
def Core.passedOver (c : Core) (x : Candidate) : Nat := ((c.passed.find? fun p => p.1 == (x.team, x.grp)).map Prod.snd).getD 0

/-- The first ranked of a core that may still issue in its present cycle; where none may, the first of the next cycle. A group that 1000
issues have passed over goes before all others: R38 promises that it issues (log entry 12). -/
def State.pick (s : State) (cs : List Candidate) (core : Nat) : Option Candidate :=
  let mine := cs.filter fun c => c.core == core
  (firstRanked (mine.filter fun c => 1000 ≤ (s.core core).passedOver c)).or
    ((firstRanked (mine.filter (s.core core).open)).or (firstRanked mine))

/-- One of several candidates of a core goes: the others have been passed over once more. -/
def State.passOver (s : State) (cs : List Candidate) (x : Candidate) : State :=
  match cs.filter fun c => c.core == x.core with
  | [] | [_] => s
  | mine => s.modCore x.core fun C =>
    { C with passed := mine.map fun c => ((c.team, c.grp), C.passedOver c + (c.team != x.team || c.grp != x.grp).toNat) }

/-- A core that others have passed over for 1000 issues (R38, log entry 12). -/
def State.overdue (s : State) (cores : List Nat) : Option Nat :=
  cores.find? fun c => (s.core c).lastIssue + 1000 < s.issues && cores.all fun d => (s.core c).lastIssue ≤ (s.core d).lastIssue

/-- What issues next; which core goes first is free, but none waits for ever (log entry 12). -/
def State.arbiter (s : State) (past : Bool) : Option (Candidate × State) :=
  let cs := s.candidates past
  let go (core : Nat) (s : State) := (s.pick cs core).map fun c => (c, s.passOver cs c)
  match cs.foldl (fun l c => setInsert l c.core) [] with
  | [] => none
  | [core] => go core s
  | cores => match s.overdue cores with
    | some core => go core s
    | none =>
      let (i, s) := s.draw cores.length
      go (cores.getD i 0) s

/-! ### Fetching (R57, R63, R113) -/

/-- Name the issuing split, and the lane at which its walk is interrupted. -/
def State.setCur (s : State) (t g i : Nat) (pc : Dword) (cut : Option Nat) : State := { s with cur := ⟨t, g, i, pc, 4, false, none, .join, cut⟩ }

/-- A fetch that meets a miss or a fault: FPC is the address that could not be fetched (R57). -/
def Issuer.meetFetch (c : Issuer) (a : Dword) (m : Met) (s : State) : State := Issuer.meet { c with pc := a } m s

/-- A group word (D = 1). -/
def Instr.isGroupWord (i : Instr) : Bool := (encode false i).head?.any fun w => w.getLsbD 31

/-- The format of a lane word (R58), D in the fourth bit. -/
def Instr.format (i : Instr) : Nat := ((encode false i).head?.map fun w => fld w.toNat 27 3 + 8 * fld w.toNat 31 1).getD 8

/-- A member-masked form (R103). -/
def Instr.isMember : Instr → Bool
  | .shup _ _ _ _ g | .shdn _ _ _ _ g | .bfly _ _ _ _ g | .perm _ _ _ _ g | .bcastl _ _ _ _ g => g
  | _ => false

/-- A lane instruction that one of its own split may follow into the pipes: one lane after the other, it reads and writes the lane it walks
alone, frees no name and owes no s register (log entry 11). -/
def Progress.plain (p : Progress) : Bool :=
  p.last.isEmpty && p.sdests.isEmpty && p.buf.isEmpty && p.mm == 0 && !p.pass2

/-- A word waits at issue: a lane word while four of the group have a last lane to start (R17); behind those of its split in the pipes a group
word, a guarded or member-masked one, and a memory word behind kind-L lanes (log entry 11). -/
def Issuer.heldUp (c : Issuer) (i : Instr) : Bool :=
  let behind := !c.spl.later.isEmpty
  if Instr.isGroupWord i then behind
  else 4 ≤ (c.grp.splits.flatMap fun e => e.2.walks).length || behind &&
    (Instr.format i == 7 || Instr.isMember i || !(c.spl.later.all Progress.plain) || Instr.format i == 3 && c.spl.later.any fun p => p.op.isSome)

/-- Run an instruction of a length and marker at issue: the lane instructions of its split that are still in the pipes stand in `later`. -/
def State.run (s : State) (i : Instr) (len : Nat) (m : Bool) : Res :=
  let s := { s with cur := { s.cur with len := len, m := m, ins := i } }
  match s.issuer? with
  | none => .refused .noIssuer
  | some c => if c.heldUp i then .next (c.stall s) else exec i s

/-- Run the instruction of a word and the word after it: a word that is no instruction is ILLEGAL (R64). -/
def runWords (w w1 : Nat) (s : State) : Res :=
  match decodeWord w w1 with
  | .ok i => s.run i (if needsSecond w then 8 else 4) (markerOf w w1)
  | .error _ => withIssuer s fun c => c.raise .illegal s

/-- Fetch the issuing split's instruction and run it; one that has issued continues without a new fetch (R283). -/
def State.fetchRun (s : State) : Res :=
  match s.issuer? with
  | none => .refused .noIssuer
  | some c =>
    match c.spl.prog with
    | some p => exec p.ins { s with cur := { s.cur with len := p.len, m := p.m, ins := p.ins } }
    | none =>
      match s.tableWord c c.pc with
      | (.error m, s) => .next (c.meetFetch c.pc m s)
      | (.ok w, s) =>
        if needsSecond w.toNat then
          match s.tableWord c (c.pc + 4) with
          | (.error m, s) => .next (c.meetFetch (c.pc + 4) m s)
          | (.ok w1, s) => runWords w.toNat w1.toNat s
        else runWords w.toNat 0 s

/-- An instruction issues past those of its split that are in the pipes: it walks no further than the lane that the last of them has reached
(R16), and joins them behind (R17). -/
def State.issuePast (s : State) (c : Candidate) (e : Split) (cut : Option Nat) : Res :=
  let reached := (e.walks.getLast?.map fun p => p.lane).getD 32
  let s := s.modSplit c.team c.grp c.split fun e => { e with prog := none, later := e.walks }
  match (s.setCur c.team c.grp c.split e.pc (some (min reached (cut.getD 32)))).fetchRun with
  | .next s => .next (s.modSplit c.team c.grp c.split fun e => e.setWalks (e.later ++ e.prog.toList))
  | x => x

/-- Issue or continue one instruction of a candidate. -/
def State.issueOne (s : State) (c : Candidate) (cut : Option Nat) : Res :=
  match s.split? c.team c.grp c.split with
  | none => .refused .noIssuer
  | some e => match e.prog with
    | none => (s.setCur c.team c.grp c.split e.pc cut).fetchRun
    | some p => if c.continues then (s.setCur c.team c.grp c.split p.pc cut).fetchRun else s.issuePast c e cut

/-! ### Events the device brings about (R38) -/

/-- What an outstanding kind-L instruction and the write buffers of a group may do next. -/
def groupEvents (t g : Nat) (G : Group) : List (Instr × EvArg) :=
  (G.ops.flatMap fun o =>
    (o.accs.flatMap fun a =>
      (if a.part = 0 then [(Instr.translationWalk, EvArg.walk (.lane t g o.id a.lane))] else []) ++
        [(.loadDataReturn, .lane t g o.id a.tag), (.atomicResultReturn, .lane t g o.id a.tag), (.padWordWritten, .lane t g o.id a.tag)]) ++
    (o.res.map fun r => (Instr.longLatencyResult, EvArg.lane t g o.id r.1)) ++
    [(.longLatencyResult, .op t g o.id), (.viewRegistersWritten, .op t g o.id)]) ++
  (G.wbuf.map fun b => (Instr.storePerformed, EvArg.lane t g b.id (b.lane + 32 * b.part))) ++
  G.splits.flatMap fun e => [(.markerRelease, .split t g e.1), (.syscallDone, .split t g e.1)]

/-- The limits of time of a group's splits. -/
def groupTimers (t g : Nat) (G : Group) : List (Instr × EvArg) :=
  G.splits.flatMap fun e =>
    [(.yieldExpiry, .split t g e.1), (.waitmWake, .split t g e.1), (.sleepExpiry, .split t g e.1), (.jointTimeout, .split t g e.1),
      (.memberTimeout, .split t g e.1)]

/-- What engines, slots and blocks may do next. -/
def State.engineEvents (s : State) : List (Instr × EvArg) :=
  (s.eops.flatMap fun x => [(Instr.engineOpComplete, EvArg.engine x.1 x.2.num), (.engineOpStart, .engine x.1 x.2.num)]) ++
  (s.cores.flatMap fun c => (Instr.matrixKstep, EvArg.core c.1) :: c.2.tiles.map fun x => (Instr.tileSlotRelease, EvArg.slot c.1 x.1)) ++
  s.ctxs.flatMap fun c => c.2.release.map fun b => (Instr.blockRelease, EvArg.block c.1 (b / 2 ^ 32) (b % 2 ^ 32))

/-- What a team may do next. -/
def teamEvents (t : Nat) (T : Team) : List (Instr × EvArg) :=
  [(.teamHalt, .team t), (.handlerStart, .team t), (.teamRetire, .team t), (.preemption, .team t)] ++
    match T.st with
    | .out _ => (List.range 24).map fun i => (.readmit, .teamCore t (24 * T.sector + i))
    | _ => []

/-- What queues and commands may do next. -/
def State.queueEvents (s : State) : List (Instr × EvArg) :=
  (s.queues.flatMap fun q =>
    (q.2.items.flatMap fun i => [(Instr.packetStart, EvArg.qitem q.1 i.num), (.waitSatisfied, .qitem q.1 i.num)]) ++
    ([.nop, .launch, .rlaunch, .copy, .signal, .wait, .cond, .contract, .mark] : List Instr).map fun i => (i, EvArg.queue q.1)) ++
  (List.range s.pkg.cmds.length).flatMap fun i =>
    ([.bind, .unbind, .queueSet, .queueReset, .tableUpdate, .faultReply, .savePool, .blockPool, .sequenceRetire, .demote, .policy, .tailShare,
      .snapArm, .preEmpt, .debug, .fwWrite, .fwActivate, .svnCommit, .attest, .identity] : List Instr).map fun r => (r, EvArg.cmd i false)

/-- What the schedulers may do next. -/
def State.schedulerEvents (s : State) : List (Instr × EvArg) :=
  (s.pkg.links.flatMap fun l => [(Instr.linkMessage, EvArg.link l.1 true), (.linkMessage, .link l.1 false)]) ++
  (s.launches.flatMap fun l =>
    (if !l.2.waits then [] else if l.2.coop then [(Instr.coopReserve, EvArg.rects l.1 (s.firstRects l.1 l.2.grid))]
      else (s.firstRects l.1 1).map fun r => (.clusterPlace, .place l.1 r.1 r.2.1 r.2.2)) ++
    [(.teamStart, .launch l.1)]) ++
  (s.contracts.map fun c => (Instr.contractBudget, EvArg.contract c.space c.cid)) ++
  (s.seqs.map fun q => (Instr.viewCommit, EvArg.view (q.1 / 2 ^ 64) (q.1 % 2 ^ 64))) ++
  s.cores.map fun c => (Instr.registerEvict, EvArg.core c.1)

/-- Limits of time beyond the groups: contracts, packets, links. -/
def State.deviceTimers (s : State) : List (Instr × EvArg) :=
  (s.fab.runs.flatMap fun r => r.2.flight.flatMap fun u =>
    [(Instr.resend, EvArg.run r.1 u.pkt.seq.toNat), (.fabricTimeout, .run r.1 u.pkt.seq.toNat),
      (.multicastTimeout, .run r.1 u.pkt.seq.toNat)]) ++
  (s.eops.map fun x => (Instr.collectiveTimeout, EvArg.engine x.1 x.2.num)) ++
  (s.fab.ports.map fun p => (Instr.holdEnd, EvArg.index p.1)) ++
  s.contracts.flatMap fun c => [(.contractDeadline, .contract c.space c.cid), (.contractPeriod, .contract c.space c.cid)]

/-- The splits whose WAITM is over though no time passes: the word differs from the expected one, or cannot be read (R38, R124). -/
def State.monitorEvents (s : State) (t : Nat) (T : Team) (g : Nat) (G : Group) : List (Instr × EvArg) :=
  G.splits.filterMap fun e => match e.2.wait with
    | .monitor a x _ _ =>
      let ended := match s.translate T.space a .read G.privileged with
        | .hit k => !s.poisoned k 4 && bytesWord (s.bytes k 4) != x
        | _ => true
      if e.2.st == .blocked && ended then some (Instr.waitmWake, EvArg.split t g e.1) else none
    | _ => none

/-- Every event that the device may bring about by itself and that needs no time to pass first. -/
def State.soonEvents (s : State) : List (Instr × EvArg) :=
  (s.teams.flatMap fun t => (t.2.groups.flatMap fun g => groupEvents t.1 g.1 g.2 ++ s.monitorEvents t.1 t.2 g.1 g.2) ++ teamEvents t.1 t.2) ++
    s.engineEvents ++ s.queueEvents ++ s.schedulerEvents ++ s.fab.ports.map fun p => (.linkRetrain, .index p.1)

/-- Every limit of time that may pass. -/
def State.timerEvents (s : State) : List (Instr × EvArg) :=
  (s.teams.flatMap fun t => t.2.groups.flatMap fun g => groupTimers t.1 g.1 g.2) ++ s.deviceTimers

/-- The first of a list of events that can happen now; none where nothing does. -/
def State.firstEvent (s : State) : List (Instr × EvArg) → Option State
  | [] => none
  | x :: xs => match exec x.1 { s with ev := x.2 } with
    | .next s => some s
    | .fault _ | .refused _ => s.firstEvent xs

/-- One instruction issues or goes on; where none can, the device goes on by itself, and time passes only where nothing else can happen.
After every 256th instruction the device is to go on by itself. -/
def State.issueNext (s : State) (cut : Option Nat) (past : Bool) : Res :=
  match s.arbiter past with
  | some (c, s) => State.issueOne { s with ownNext := (s.issues + 1) % 256 == 0 } c cut
  | none => .next ((s.firstEvent (s.soonEvents ++ s.timerEvents)).getD s)

/-- What the device does when its turn has come: an event of its own, until none can happen; after every 4096th instruction then a
limit of time passes. So a program that waits in a loop does not hold up what it waits for (log entry 1). -/
def State.ownTurn (s : State) : Option State :=
  if s.ownNext then
    match s.firstEvent s.soonEvents with
    | some s => some s
    | none =>
      if s.issues % 4096 = 0 then (s.firstEvent s.timerEvents).map fun (s : State) => { s with ownNext := false } else none
  else none

/-- The device's turn, or an instruction. -/
def State.advanceOne (s : State) : Res :=
  match s.ownTurn with
  | some s => .next s
  | none => s.issueNext none false

/-! ### Inputs -/

/-- An event row: it has no word. -/
def Instr.isEvent (i : Instr) : Bool := (encode false i).isEmpty

/-- Take the first entry of the agenda: an event, an instruction, an access over the second host link, which in recovery takes no write (R329), a
flit to be replayed (R338), pages that the host refuses (R234), a store by
the host. A store to the staging window acts in recovery alone (R329). -/
def State.takeInput (s : State) : Input → Res
  | .event i a => if Instr.isEvent i then exec i { s with ev := a } else .refused .noIssuer
  | .issue cut past => s.issueNext cut past
  | .secondLink i a =>
    if !Instr.isEvent i then .refused .noIssuer else if 8 ≤ s.pkg.stage then .next s else exec i { s with ev := a }
  | .flitReplay port =>
    .next (if (s.port port).exhausted then s.leaveUp port else { s with fab := { s.fab with ports := s.fab.ports.modify port Port.replayFlits } })
  | .hostRefuse ps => .next { s with pkg := { s.pkg with hostRefused := ps } }
  | .hostStore key bs late =>
    .next (if late then { s with pkg := { s.pkg with hostLate := s.pkg.hostLate ++ [(key, bs)] } } else s.store key bs)
  | .stagingStore off bs =>
    let put (m : SMap Byte) : SMap Byte := (bs.zipIdx).foldl (fun m b => if off + b.2 < 2 ^ 26 then SMap.put 0 m (off + b.2) b.1 else m) m
    .next (if s.pkg.stage = 8 then { s with pkg := { s.pkg with staging := put s.pkg.staging } } else s)

/-- The next entry of the agenda is a store by the host: it may come before the writes that a host link has accepted (R241, R255). -/
def State.hostFirst (s : State) : Bool := match s.agenda with
  | .hostStore _ _ _ :: _ => true
  | _ => false

/-- What the step does: the agenda's first entry, else an instruction. Without power only a package reset is answered (R11). -/
def State.act (s : State) : Res :=
  let s := if s.hostFirst then s else s.flushPosted
  match s.agenda with
  | [] => if s.pkg.powered then s.advanceOne else .fault .noPower
  | x :: rest =>
    let back := match x with
      | .event .packageReset _ => true
      | _ => false
    if s.pkg.powered || back then State.takeInput { s with agenda := rest } x else .fault .noPower

/-! ### What closes a step -/

/-- A group has issued on a core (R274): in the present cycle, or the first of the next; it has not been passed over since. -/
def Core.issued (c : Core) (t g : Nat) (pipe : Bool) (no : Nat) : Core :=
  let c := { c with passed := c.passed.filter fun p => p.1 != (t, g) }
  if c.begins t g pipe then { c with turn := [(t, g)], pipes := pipe.toNat, cycle := no, lastIssue := no }
  else { c with turn := c.turn ++ [(t, g)], pipes := c.pipes + pipe.toNat, lastIssue := no }

/-- What a core remembers of an issue: its cycle (R274) and its four latest issues, slot and address, newest first (R290). -/
def State.noteIssue (old s : State) : State :=
  if s.issues = old.issues then s
  else match s.teams.find? s.cur.team with
    | none => s
    | some T =>
      let slot := ((T.groups.find? s.cur.grp).map Group.slot).getD 0
      let mine := (s.recent.filter fun r => r.1 == T.core).take 3
      let s := s.modCore T.core fun c => c.issued s.cur.team s.cur.grp (Instr.isGroupWord s.cur.ins) s.issues
      let s := s.modGroup s.cur.team s.cur.grp fun G => { G with lastCycle := (s.core T.core).cycle }
      { s with recent := (T.core, slot, s.cur.pc.toNat) :: mine ++ s.recent.filter fun r => r.1 != T.core }

/-- A step that only stalled keeps its mark; any other clears the marks. -/
def State.clearStalls (old s : State) : State := if old.stalls.length < s.stalls.length then s else { s with stalls := [] }

/-- Time passes (log entry 1). -/
def State.pass (s : State) : State := { s with now := s.now + Config.elapsed s.free, free := s.free + 1 }

/-- The v and s registers that the fields of an instruction's word name (R58 to R60), behind a GUARD those of the guarded word. -/
def Instr.named (i : Instr) : List Nat × List Nat :=
  let w := match (encode false i).map BitVec.toNat with
    | x :: y :: _ => if fld x 27 3 = 7 ∧ fld x 31 1 = 0 then y else x
    | [x] => x
    | [] => 2 ^ 31 + 7 * 2 ^ 27
  let regs (bits : List Nat) : List Nat := bits.map fun b => fld w b 6
  match fld w 31 1, fld w 27 3 with
  | 0, 0 => (regs [15, 9, 3], [])
  | 0, 1 => (regs [16], [])
  | 0, 2 => (regs [17, 11, 5], [])
  | 0, 3 => (regs [16, 10], [2 * fld w 6 4, 2 * fld w 6 4 + 1])
  | 0, 4 => (regs [15, 9], [])
  | 0, 5 => (regs [13, 7], [])
  | 0, 6 => (regs [16, 10], regs [4])
  | 1, 0 => ([], regs [15, 9, 3])
  | 1, 1 | 1, 6 => ([], regs [16])
  | 1, 2 => ([], regs [17])
  | 1, 4 => ([], regs [12, 6])
  | 1, 5 => ([], regs [15, 9])
  | _, _ => ([], [])

/-- The further registers of pairs, wide stores and descriptors that an instruction reads. -/
def Instr.further : Instr → List Nat × List Nat
  | .iadd64 d a b _ _ _ | .isub64 d a b _ _ => ([d.toNat + 1, a.toNat + 1, b.toNat + 1], [])
  | .imadw d _ _ _ _ => ([d.toNat + 1], [])
  | .stg64 t _ _ _ _ | .stp64 t _ _ _ _ | .stl64 t _ _ _ _ => ([t.toNat + 1], [])
  | .stg128 t _ _ _ _ | .stp128 t _ _ _ _ => ([t.toNat + 1, t.toNat + 2, t.toNat + 3], [])
  | .atomg t _ _ _ c | .redg t _ _ _ c | .atomp t _ _ _ c => (if c = 12 then [t.toNat + 1] else [], [])
  | .ldf32 _ a _ _ | .stf32 _ a _ _ => ([a.toNat + 1], [])
  | .vtot _ b _ => ([2 * b.toNat, 2 * b.toNat + 1], [])
  | .sadd64 _ a b => ([], [a.toNat + 1, b.toNat + 1])
  | .brx a | .waitm a _ _ | .qmov _ a _ _ | .wbld _ a _ _ _ _ | .kvflush _ a | .rpub _ a _ | .rstepBegin a _ | .rstepEnd a | .rwiden a _
  | .rnarrow a _ | .rview a _ | .enc _ a _ => ([], sFrom a 2)
  | .kvalloc a _ | .tld _ a _ _ | .tst _ a _ _ | .kvapp _ a _ => ([], sFrom a 3)
  | .pagein _ a | .kvrel _ a | .mcst _ a _ => ([], sFrom a 4)
  | .coll _ a _ | .kvappMem _ a => ([], sFrom a 6)
  | .gath _ a _ _ l => ([], sFrom a (if l then 6 else 4))
  | .sigf _ a b _ => ([], sFrom a 7 ++ sFrom b 2)
  | .cpy _ a _ d | .cpyf _ a _ d => ([], sFrom a (4 + 3 * d.toNat))
  | .syscall _ => ([], List.range 8)
  | _ => ([], [])

/-- The scale registers that a matrix command of this group and split reads (R170). -/
def State.scaleNames (s : State) (i : Instr) : List Nat := match i with
  | .mma _ _ _ _ _ _ | .mmas _ _ _ _ _ | .sigq _ _ _ => match s.group? s.cur.team s.cur.grp, s.split? s.cur.team s.cur.grp s.cur.split with
    | some G, some e => scaleRegs (fld G.scv.toNat 0 6) e.fmt ++ scaleRegs (fld G.scv.toNat 8 6) e.fmt
    | _, _ => []
  | _ => []

/-- The word behind a GUARD as an instruction (R62), any other instruction as it is. -/
def Instr.plain : Instr → Instr
  | .guard p n w => match decodeWord w.toNat 0 with
    | .ok i => i
    | .error _ => .guard p n w
  | i => i

/-- The registers that the instruction of a step names are read: their single-bit errors are corrected (R243, log entry 63). -/
def State.noteReads (old s : State) : State :=
  if s.flips.isEmpty || (s.issues == old.issues && s.cur == old.cur) then s
  else
    let (vs, ss) := Instr.named s.cur.ins
    let (vs', ss') := Instr.further (Instr.plain s.cur.ins)
    let vs := vs ++ vs' ++ s.scaleNames s.cur.ins
    let ss := ss ++ ss'
    s.readUnits fun x => match x with
      | .vreg t g n _ => t == s.cur.team && g == s.cur.grp && vs.contains n
      | .sreg t g n => t == s.cur.team && g == s.cur.grp && (ss.contains n || ss.contains (n + 1))
      | _ => false

/-- The words of an instruction that has issued were fetched through its core's instruction cache (R227). -/
def State.noteFetch (old s : State) : State :=
  if s.issues = old.issues then s
  else match s.group? s.cur.team s.cur.grp, s.teams.find? s.cur.team with
    | some G, some T =>
      let fetch (s : State) (pc : Nat) : State := match s.translate T.space pc .fetch G.privileged with
        | .hit k => s.fetchLine T.core k
        | _ => s
      let s := fetch s s.cur.pc.toNat
      if s.cur.len = 8 then fetch s (s.cur.pc.toNat + 4) else s
    | _, _ => s

/-- Close a step that did something: late stores of the host arrive (R241), core time is counted (R273). -/
def State.close (old s : State) : State :=
  let s := old.noteReads (old.noteFetch (old.noteIssue s))
  let s := ((if old.pkg.hostLate.isEmpty then s else s.hostArrives).wake.settleBoot old.pkg.stage).pass
  old.clearStalls (s.charge old.now)

/-- One step of the machine. -/
def State.cycle (s : State) : Res :=
  match s.act with
  | .next s' => if s'.pkg.powered then .next (s.close s') else .next s'
  | .fault f => .fault f
  | .refused r => .refused r

/-! ### A program in place -/

/-- The address at which `withProgram` places instructions: page 4 of an address space whose first 512 MiB map memory one to one. -/
def programAt : Nat := 0x40000

/-- A context with page tables at 64 KiB and 128 KiB of memory (R231, R232). -/
def programCtx : Ctx :=
  { roots := [1 + 65536, 0, 0, 0], handler := BitVec.ofNat 64 (programAt + 0x1000), ring := 0, entries := 64, ringNext := 0, vf := 0
    fatal := false, armed := false, trace := 0, policy := ⟨0, 0, 0⟩, pool0 := [], pool1 := [], refs := [], pins := [], release := [] }

/-- A launch of one team of one group. -/
def programLaunch : Launch :=
  { desc := 0x50000, entry := BitVec.ofNat 64 programAt, partition := 16 + 16 * 64 + 32 * 4096, regs := 32, groups := 1, tiles := 4
    width := 1, height := 1, pad := 64, coop := false, prio := 0, realtime := false, classes := 63, grid := 1, area := 0x60000, fabric := 0
    contract := 0, space := 1, queue := 0, num := 1, status := 0x70000, rope := none, view := 0, dies := [], placed := 1
    reserved := false, started := true, retired := [], failed := false, complete := false, spent := false
    clusters := [(0, ⟨0, 0, 0, [0], [], 0, 0⟩)] }

/-- The one team of that launch, on core 0, at its entry. -/
def programTeam : Team :=
  { st := .running, launch := 4, space := 1, core := 0, cix := 0, tx := 0, ty := 0, groups := [(0, Group.fresh programLaunch 0 1 2 3)]
    pad := [], padBad := [], padBase := 0, padSize := 4096, hearth := [], bars := [], quota := 4, slots := [], handling := none
    cause := none, debug := false, faulting := none, seenCluster := false, admitted := 0, saveAt := 0, saveSize := 0, tiles := []
    miss := none, declined := false, replay := false }

/-- The state with these bytes as the program of one resident team, ready to issue; it stands for bring-up, a BIND, table updates and a
LAUNCH by the driver (log entry 7). -/
def State.withProgram (s : State) (bs : List Byte) : State :=
  let owner : SMap ECtx :=
    [(1, ⟨.matrix 0 0, 1, 0, 0, [], [], []⟩), (2, ⟨.copy 0 0, 1, 0, 0, [], [], []⟩), (3, ⟨.gather 0 0, 1, 0, 0, [], [], []⟩),
      (4, ⟨.launch, 1, 0, 0, [], [], []⟩)]
  let s := { s with
    pkg := { s.pkg with powered := true, stage := 3 }
    ctxs := s.ctxs.insert 1 programCtx
    launches := s.launches.insert 4 programLaunch
    teams := [(0, programTeam)]
    cores := s.cores.insert 0 { Core.empty with partition := programLaunch.partition }
    ectxs := List.foldl (fun (m : SMap ECtx) (x : Nat × ECtx) => m.insert x.1 x.2) s.ectxs owner
    agenda := []
    stalls := []
    ownNext := false
    nextTeam := max 1 s.nextTeam
    nextCtx := max 5 s.nextCtx }
  ((s.store 65536 (natBytes 8 (1 + 2 * 65536))).store 131072 (natBytes 8 15)).store programAt bs

end Sys2Proof.Machine
end

