-- ==== Sys2Proof/Machine/Step.lean ====
section
/-! DEFINITION. One step of the machine, and a word placed where the next step fetches it. -/
namespace Sys2Proof.Machine

/-- One step: what stands first on the agenda, else the next instruction, else the device by itself. -/
def step (s : State) : Host.Outcome State Fault Refusal := s.cycle

/-- The state in which the next step fetches the instruction of these bits (bit 0 the lowest of the first word), the bits above zero. -/
def State.withFetchWord (s : State) (nbits w : Nat) : State := s.withProgram (natBytes 8 (w % 2 ^ nbits))

end Sys2Proof.Machine
end

