-- ==== Sys2Proof/Safety.lean ====
section
/-! DEFINITION. The vocabulary of the statements: what counts as a well-kept state, an instruction that issues with nothing in its
way, and the state after one that changes its own group alone. -/
namespace Sys2Proof.Machine

/-- The memory of a state is in canonical form. -/
def State.wf (s : State) : Prop := Memory.wf s.mem = true

/-- Every byte of memory reads as before. -/
def SameMemory (s t : State) : Prop := ∀ a, memByte t.mem a = memByte s.mem a

/-- Split c issues the current instruction of s: its team runs or is in its handler (it counts no skid, R278), nothing of the instruction
has been done yet (R105, R106), and its walk is not interrupted (log entry 11). -/
structure Issues (s : State) (c : Issuer) : Prop where
  issuer : s.issuer? = some c
  steady : c.team.st.isHalting = false
  fresh : c.spl.prog = none
  whole : c.cut = none

/-- The issuing split after its instruction: it goes on at pc; a marker parks it on the kind-L instructions numbered so far (R68). -/
def Issuer.moved (c : Issuer) (pc : Dword) (upto : Nat) (e : Split) : Split :=
  { e with pc := pc, prog := none, wait := .none, mark := if c.m then some upto else none, st := if c.m then .blocked else .ready }

/-- Group G once the issuing split has gone on at pc and the issue has been counted (R69, R274). -/
def Issuer.advanced (c : Issuer) (s : State) (pc : Dword) (G : Group) : Group :=
  { G with lastIssue := s.issues + 1
           issued := if G.saved.isSome then G.issued else G.issued + 1
           splits := G.splits.modify c.sid (c.moved pc G.nextOp) }

/-- The state in which the issuing group has become G, one more instruction has issued, and nothing else has changed. -/
def State.becomes (s : State) (c : Issuer) (G : Group) : State :=
  { s with issues := s.issues + 1, teams := s.teams.modify c.tid fun T => { T with groups := T.groups.modify c.gid fun _ => G } }

/-- The same split goes on with the next instruction; its group has become G. -/
def Completes (i : Instr) (s : State) (c : Issuer) (G : Group) : Prop := exec i s = .next (s.becomes c (c.advanced s c.next G))

/-- A lane word with active lanes that nothing holds back (R14, R21, R22, R79): the names it writes have no write outstanding, the
registers it needs are there, no active lane of a source is poisoned. -/
structure LaneReady (s : State) (c : Issuer) (srcs dsts : List Nat) : Prop where
  active : c.active ≠ 0
  idle : dsts.any c.grp.vBusy = false
  room : s.alloc c.team c.grp (c.needs dsts) (c.needs dsts).length = .ok
  clean : c.badLanes srcs &&& c.active = 0

/-- Lane k of register v[n] of the issuing group. -/
def Issuer.lane (c : Issuer) (n k : Nat) : Word := (c.grp.v.getD n VReg.zero).lane k

/-- What lane k of v[n] holds under a map; an unmapped register reads zero (R21). -/
def laneIn (v : SMap VReg) (n k : Nat) : Word := (v.getD n VReg.zero).lane k

/-- A group word that nothing holds back (R67, R82, R106, R243): no lane instruction still to write the s registers it reads, no poison in
them, no write outstanding to those it writes. -/
structure WordReady (c : Issuer) (reads writes : List Nat) : Prop where
  settled : reads.any c.grp.sComing = false
  clean : reads.any c.grp.sbad.contains = false
  idle : writes.any c.grp.sBusy = false

/-- A fault that is taken in a running team (R276, R278): the group's fault registers, its frozen splits, the halting team. -/
structure TakenAt (t : State) (tid gid : Nat) (cause : Cause) (detail : Nat) (lanes : Mask) (pc : Dword) : Prop where
  halting : ∃ T, t.teams.find? tid = some T ∧ T.st = .halting gid
  regs : ∃ G, t.group? tid gid = some G ∧ G.fr.flt = lanes ∧ G.fr.fpc = pc ∧ G.fr.fcause.toNat % 65536 = cause.num + 256 * detail ∧
    ∀ e ∈ G.splits, e.2.st ≠ .ready ∧ e.2.st ≠ .blocked

/-- The issuing split's fault is taken, with no detail in FCAUSE. -/
def Taken (t : State) (c : Issuer) (cause : Cause) (lanes : Mask) (pc : Dword) : Prop := TakenAt t c.tid c.gid cause 0 lanes pc

/-- A group of a running team whose context has a handler, and which is not running it: its faults are not fatal (R280). -/
structure HandledAt (s : State) (T : Team) (G : Group) : Prop where
  runs : T.st = .running
  user : G.saved = none
  ctx : ∃ x, s.ctxs.find? T.space = some x ∧ x.handler ≠ 0 ∧ x.fatal = false

/-- The issuing group. -/
def Handled (s : State) (c : Issuer) : Prop := HandledAt s c.team c.grp

/-! ### What an issuing split fetches (R57, R63, R64) -/

/-- An instruction of state v at issue comes to what `goes` says: it waits where others of its group hold it up (R17), else it runs. -/
def Runs (i : Instr) (v : State) (goes : State → Prop) : Prop :=
  ∀ d, v.issuer? = some d → (d.heldUp i = true → goes (d.stall v)) ∧ (d.heldUp i = false → ∀ t, exec i v = .next t → goes t)

/-- Split c issues in q what stands at its address, where that can be read: one word, or two where the first needs a second; a word that is
no instruction is ILLEGAL. Reading a word corrects its single-bit errors (R243). -/
def RunsFetched (q : State) (c : Issuer) (goes : State → Prop) : Prop :=
  let put (v : State) (len : Nat) (m : Bool) (i : Instr) : State := { v with cur := { q.cur with len := len, m := m, ins := i } }
  ∀ a, windowOf c.pc.toNat < 2 → q.translate c.team.space c.pc.toNat .fetch c.grp.privileged = .hit a → q.poisoned a 4 = false →
    let w := q.nat a 4
    let u := q.readMem a 4
    (∀ i, needsSecond w = false → decodeWord w 0 = .ok i → Runs i (put u 4 (markerOf w 0) i) goes) ∧
    (∀ x d, needsSecond w = false → decodeWord w 0 = .error x → u.issuer? = some d → goes (d.raise .illegal u)) ∧
    ∀ b, needsSecond w = true → windowOf (c.pc + 4).toNat < 2 →
      u.translate c.team.space (c.pc + 4).toNat .fetch c.grp.privileged = .hit b → u.poisoned b 4 = false →
      let v := u.readMem b 4
      (∀ i, decodeWord w (u.nat b 4) = .ok i → Runs i (put v 8 (markerOf w (u.nat b 4)) i) goes) ∧
      ∀ x d, decodeWord w (u.nat b 4) = .error x → v.issuer? = some d → goes (d.raise .illegal v)

end Sys2Proof.Machine
end

