-- ==== Sys2Proof/Safety/LaneTables.lean ====
section
/-! DEFINITION. The lane words in tables for the statements: each instruction with the registers it reads, reads for the last time
and writes, and the value that the spec gives a lane. -/
namespace Sys2Proof.Machine

/-- A lane word with one destination: what lane k of v[d] becomes, from the issuer, the lane and the sources' lanes k. -/
structure LaneWord where
  i : Instr
  legal : Fmt → Bool
  srcs : List Nat
  last : List Nat
  d : Nat
  val : Issuer → Nat → (Nat → Word) → Word

/-- The word completes for every state and operands that nothing holds back: each active lane of v[d] takes the value, every other
lane keeps what it had (zero where the word reads d for the last time, R21), the names read for the last time are free (an instruction of
the group that stopped keeps what it still reads of them, R105), and nothing else of the machine changes; with no active lane it does nothing
(R14). -/
def LaneWord.Complete (w : LaneWord) : Prop :=
  ∀ (s : State) (c : Issuer), Issues s c → w.legal c.fmt = true →
    (LaneReady s c w.srcs [w.d] → ∃ V : SMap VReg, Completes w.i s c { c.grp.keepNames w.last with v := V } ∧
      (∀ k < 32, laneIn V w.d k =
        if c.active.has k then w.val c k (fun n => c.lane n k) else if w.last.contains w.d then 0 else c.lane w.d k) ∧
      ∀ n, n ≠ w.d → SMap.find? V n = if w.last.contains n then none else SMap.find? c.grp.v n) ∧
    (c.active = 0 → c.grp.vBusy w.d = false → Completes w.i s c c.grp)

/-- A reserved code in a field of FMT that the word uses raises ILLEGAL: nothing is executed (R26). -/
def LaneWord.Reserved (w : LaneWord) : Prop :=
  ∀ (s : State) (c : Issuer), Issues s c → Handled s c → w.legal c.fmt = false →
    ∃ t, exec w.i s = .next t ∧ Taken t c .illegal c.spl.act c.pc ∧ SameMemory s t ∧
      ∃ G, t.group? c.tid c.gid = some G ∧ G.v = c.grp.v ∧ G.p = c.grp.p ∧ G.s = c.grp.s

/-- Words without FMT of two sources, one source, the destination as source, and of three sources. -/
def two (i : Instr) (d a b : BitVec 6) (la lb : Bool) (f : Word → Word → Word) : LaneWord :=
  ⟨i, Fmt.any, [a.toNat, b.toNat], last2 a b la lb, d.toNat, fun _ _ v => f (v a.toNat) (v b.toNat)⟩
def one (i : Instr) (d a : BitVec 6) (la : Bool) (f : Word → Word) : LaneWord :=
  ⟨i, Fmt.any, [a.toNat], last1 a la, d.toNat, fun _ _ v => f (v a.toNat)⟩
def self (i : Instr) (d : BitVec 6) (f : Word → Word) : LaneWord :=
  ⟨i, Fmt.any, [d.toNat], [], d.toNat, fun _ _ v => f (v d.toNat)⟩
def three (i : Instr) (d a b : BitVec 6) (la lb : Bool) (f : Word → Word → Word → Word) : LaneWord :=
  ⟨i, Fmt.any, [a.toNat, b.toNat, d.toNat], last2 a b la lb, d.toNat, fun _ _ v => f (v a.toNat) (v b.toNat) (v d.toNat)⟩
def const (i : Instr) (d : BitVec 6) (x : Nat → Word) : LaneWord := ⟨i, Fmt.any, [], [], d.toNat, fun _ k _ => x k⟩

/-- R83, R84, R88: integer and logical words of two sources. -/
def intWords (d a b : BitVec 6) (la lb x : Bool) : List LaneWord :=
  [two (.iadd d a b la lb x) d a b la lb fun u v =>
      if x then BitVec.ofInt 32 (max (-2 ^ 31) (min (2 ^ 31 - 1) (u.toInt + v.toInt))) else u + v,
    two (.isub d a b la lb x) d a b la lb fun u v =>
      if x then BitVec.ofInt 32 (max (-2 ^ 31) (min (2 ^ 31 - 1) (u.toInt - v.toInt))) else u - v,
    two (.imul d a b la lb x) d a b la lb fun u v => if x then BitVec.ofInt 32 (u.toInt * v.toInt / 2 ^ 32) else u * v,
    two (.imuln d a b la lb x) d a b la lb fun u v => if x then BitVec.ofNat 32 (u.toNat * v.toNat / 2 ^ 32) else u * v,
    two (.imin d a b la lb x) d a b la lb fun u v => if (if x then v.ult u else v.slt u) then v else u,
    two (.imax d a b la lb x) d a b la lb fun u v => if (if x then u.ult v else u.slt v) then v else u,
    two (.and d a b la lb) d a b la lb fun u v => u &&& v,
    two (.or d a b la lb) d a b la lb fun u v => u ||| v,
    two (.xor d a b la lb) d a b la lb fun u v => u ^^^ v,
    two (.andn d a b la lb) d a b la lb fun u v => u &&& ~~~v,
    two (.shl d a b la lb) d a b la lb fun u v => if 32 ≤ v.toNat then 0 else u <<< v.toNat,
    two (.shr d a b la lb x) d a b la lb fun u v =>
      if x then u.sshiftRight (min v.toNat 31) else if 32 ≤ v.toNat then 0 else u >>> v.toNat,
    two (.rot d a b la lb) d a b la lb fun u v => u.rotateLeft (v.toNat % 32),
    two (.bfx d a b la lb x) d a b la lb fun u v => bfx x u v,
    two (.pack2 d a b la lb x) d a b la lb fun u v => halves (half v x.toNat) (half u x.toNat)]

/-- R89: words with an immediate. -/
def immWords (d : BitVec 6) (imm : BitVec 16) (n : BitVec 5) : List LaneWord :=
  [const (.movi d imm) d fun _ => imm.signExtend 32,
    self (.movhi d imm) d fun x => halves imm.toNat (half x 0),
    self (.iaddi d imm) d fun x => x + imm.signExtend 32,
    self (.imuli d imm) d fun x => x * imm.signExtend 32,
    self (.andi d imm) d fun x => x &&& imm.setWidth 32,
    self (.ori d imm) d fun x => x ||| imm.setWidth 32,
    self (.xori d imm) d fun x => x ^^^ imm.setWidth 32,
    self (.shli d n) d fun x => x <<< n.toNat,
    self (.shri d n) d fun x => x >>> n.toNat,
    self (.shrai d n) d fun x => x.sshiftRight n.toNat,
    const (.hmovi2 d imm) d fun _ => imm ++ imm,
    const (.qmovi4 d imm) d fun _ => imm ++ imm,
    const (.laneid d) d fun k => BitVec.ofNat 32 k]

/-- R90, R92, R93, R96: words of three sources and of one. -/
def moveWords (d a b : BitVec 6) (la lb h : Bool) (p : BitVec 3) : List LaneWord :=
  [three (.imad d a b la lb h) d a b la lb fun x y z =>
      (if h then BitVec.ofInt 32 (x.toInt * y.toInt / 2 ^ 32) else x * y) + z,
    three (.bfi d a b la lb) d a b la lb bfi,
    three (.permb d a b la lb) d a b la lb fun x y z =>
      halves (permByte x y z 3 * 256 + permByte x y z 2) (permByte x y z 1 * 256 + permByte x y z 0),
    ⟨.sel d a b la lb p, Fmt.any, [a.toNat, b.toNat], last2 a b la lb, d.toNat,
      fun c k v => if (c.grp.pred p.toNat).has k then v a.toNat else v b.toNat⟩,
    one (.mov d a la) d a la fun x => x,
    one (.ineg d a la) d a la fun x => -x,
    one (.not d a la) d a la fun x => ~~~x,
    one (.popc d a la) d a la fun x => BitVec.ofNat 32 ((List.range 32).countP fun i => x.getLsbD i),
    one (.clz d a la) d a la fun x => BitVec.ofNat 32 (clz x),
    one (.brev d a la) d a la fun x => x.reverse,
    one (.fclass d a la) d a la fun x => BitVec.ofNat 32 (fclass x.toNat)]

/-- A float word: two sources, three, one, the destination as source. -/
def float2 (i : Instr) (legal : Fmt → Bool) (d a b : BitVec 6) (la lb : Bool) (f : Fmt → Word → Word → Word) : LaneWord :=
  ⟨i, legal, [a.toNat, b.toNat], last2 a b la lb, d.toNat, fun c _ v => f c.fmt (v a.toNat) (v b.toNat)⟩
def float3 (i : Instr) (legal : Fmt → Bool) (d a b : BitVec 6) (la lb : Bool) (f : Fmt → Word → Word → Word → Word) : LaneWord :=
  ⟨i, legal, [a.toNat, b.toNat, d.toNat], last2 a b la lb, d.toNat, fun c _ v => f c.fmt (v a.toNat) (v b.toNat) (v d.toNat)⟩
def float1 (i : Instr) (legal : Fmt → Bool) (d a : BitVec 6) (la : Bool) (f : Fmt → Word → Word) : LaneWord :=
  ⟨i, legal, [a.toNat], last1 a la, d.toNat, fun c _ v => f c.fmt (v a.toNat)⟩
def floatD (i : Instr) (legal : Fmt → Bool) (d : BitVec 6) (f : Fmt → Word → Word) : LaneWord :=
  ⟨i, legal, [d.toNat], [], d.toNat, fun c _ v => f c.fmt (v d.toNat)⟩

/-- Each half of a word by itself. -/
def byHalf (f : Nat → Nat → Nat) (x y : Word) : Word := halves (f (half x 1) (half y 1)) (f (half x 0) (half y 0))

/-- R87, R88, R90 to R92: FP32 and packed half arithmetic; one rounding of the exact result each (R47). -/
def floatWords (d a b : BitVec 6) (la lb x : Bool) (r : BitVec 3) (imm : BitVec 16) : List LaneWord :=
  [float2 (.fadd d a b la lb) Fmt.rmOk d a b la lb fun f u v => f.round32 f.rm (FV.add f.rm (f32 u) (f32 v)),
    float2 (.fsub d a b la lb) Fmt.rmOk d a b la lb fun f u v => f.round32 f.rm (FV.add f.rm (f32 u) (f32 v).neg),
    float2 (.fmul d a b la lb) Fmt.rmOk d a b la lb fun f u v => f.round32 f.rm (FV.mul (f32 u) (f32 v)),
    float2 (.fmin d a b la lb x) Fmt.any d a b la lb fun f => fMinMax f false x,
    float2 (.fmax d a b la lb x) Fmt.any d a b la lb fun f => fMinMax f true x,
    float2 (.hadd2 d a b la lb) Fmt.rmOk d a b la lb fun f => byHalf (hAdd f),
    float2 (.hsub2 d a b la lb) Fmt.rmOk d a b la lb fun f => byHalf (hSub f),
    float2 (.hmul2 d a b la lb) Fmt.rmOk d a b la lb fun f => byHalf (hMul f),
    float2 (.hmin2 d a b la lb) Fmt.any d a b la lb fun f => byHalf (f.half.minmax false false),
    float2 (.hmax2 d a b la lb) Fmt.any d a b la lb fun f => byHalf (f.half.minmax true false),
    floatD (.faddi d imm) Fmt.rmOk d fun f u => f.round32 f.rm (FV.add f.rm (f32 u) (bf16.dec imm.toNat)),
    floatD (.fmuli d imm) Fmt.rmOk d fun f u => f.round32 f.rm (FV.mul (f32 u) (bf16.dec imm.toNat)),
    ⟨.fmovi d imm, Fmt.any, [], [], d.toNat, fun c _ _ => c.fmt.round32 0 (bf16.dec imm.toNat)⟩,
    floatD (.hadd2i d imm) Fmt.rmOk d fun f u => byHalf (hAdd f) u (imm ++ imm),
    floatD (.hmul2i d imm) Fmt.rmOk d fun f u => byHalf (hMul f) u (imm ++ imm),
    floatD (.fmini d imm) Fmt.any d fun f u => fMinMax f false false u (bf16Word imm),
    floatD (.fmaxi d imm) Fmt.any d fun f u => fMinMax f true false u (bf16Word imm),
    float3 (.ffma d a b la lb r) (fmaLegal r) d a b la lb fun f u v w =>
      f.round32 (fmaMode f r) (FV.add (fmaMode f r) (FV.mul (f32 u) (f32 v)) (f32 w)),
    float3 (.fnma d a b la lb r) (fmaLegal r) d a b la lb fun f u v w =>
      f.round32 (fmaMode f r) (FV.add (fmaMode f r) (FV.mul (f32 u).neg (f32 v)) (f32 w)),
    float3 (.hfma2 d a b la lb) Fmt.rmOk d a b la lb fun f u v w =>
      halves (hFma f (half u 1) (half v 1) (half w 1)) (hFma f (half u 0) (half v 0) (half w 0)),
    float3 (.fclamp d a b la lb) Fmt.any d a b la lb fun f u v w =>
      BitVec.ofNat 32 (flush f.ftz (fp32.minmax false true (fp32.minmax true true w.toNat u.toNat) v.toNat)),
    float1 (.fabs d a la) Fmt.any d a la fun f u => fSign f u (u &&& 0x7FFFFFFF#32),
    float1 (.fneg d a la) Fmt.any d a la fun f u => fSign f u (u ^^^ 0x80000000#32)]

/-- R53, R95, R96: dot products and conversions. -/
def convertWords (d a b : BitVec 6) (la lb h : Bool) (e r : BitVec 2) (n : BitVec 3) : List LaneWord :=
  [float3 (.dot4 d a b la lb) (fun f => f.float8.isNone || f.rmOk) d a b la lb fun f x y z =>
      if f.float8.isSome then dotFloat f 4 (fun w i => f.elem8 (byteOf w i)) x y z else dotInt 4 (fun w i => f.int8 (byteOf w i)) x y z,
    float3 (.dot8 d a b la lb) (fun f => f.q4Ok && (f.q4 != 0 || f.rmOk)) d a b la lb fun f x y z =>
      if f.q4 = 0 then dotFloat f 8 (fun w i => f.elem4 (nibble w i)) x y z else dotInt 8 (fun w i => f.int4 (nibble w i)) x y z,
    float3 (.dot2h d a b la lb) Fmt.rmOk d a b la lb fun f => dotFloat f 2 fun w i => f.half.dec (half w i),
    float1 (.ftoi d a la) Fmt.rmOk d a la fun f x => BitVec.ofInt 32 (FV.clampInt f.rm (-2147483648) 2147483647 (f32 x)),
    float1 (.itof d a la) Fmt.rmOk d a la fun f x => f.round32 f.rm (FV.ofInt x.toInt),
    ⟨.fcvt d a la h, Fmt.rmOk, [a.toNat, d.toNat], last1 a la, d.toNat,
      fun c _ v => putField (v d.toNat) (16 * h.toNat) 16 (c.fmt.half.enc c.fmt.rm (f32 (v a.toNat)))⟩,
    float1 (.hcvt d a la h) Fmt.any d a la fun f x => f.round32 0 (f.half.dec (half x h.toNat)),
    ⟨.qcvt d a la e, Fmt.any, [a.toNat, d.toNat], last1 a la, d.toNat,
      fun c _ v => putField (v d.toNat) (8 * e.toNat) 8 (c.fmt.to8 (f32 (v a.toNat)))⟩,
    float1 (.qunp d a la e) Fmt.any d a la fun f x => f.round32 0 (f.elem8 (byteOf x e.toNat)),
    ⟨.q4cvt d a la n, Fmt.q4Ok, [a.toNat, d.toNat], last1 a la, d.toNat,
      fun c _ v => putField (v d.toNat) (4 * n.toNat) 4 (c.fmt.to4 (f32 (v a.toNat)))⟩,
    float1 (.q4unp d a la n) Fmt.q4Ok d a la fun f x => f.round32 0 (f.elem4 (nibble x n.toNat)),
    float1 (.frnd d a la r) Fmt.any d a la fun f x => f.round32 0 (roundIntegral (frndMode r) (f32 x))]

/-- A lane word whose destination is the pair v[d+1]:v[d] (R85, R90). -/
structure PairWord where
  i : Instr
  srcs : List Nat
  last : List Nat
  d : Nat
  val : (Nat → Word) → Dword

/-- As LaneWord.Complete, for both registers of the pair. -/
def PairWord.Complete (w : PairWord) : Prop :=
  ∀ (s : State) (c : Issuer), Issues s c → LaneReady s c w.srcs [w.d, w.d + 1] →
    ∃ V : SMap VReg, Completes w.i s c { c.grp.keepNames w.last with v := V } ∧
      (∀ k < 32, c.active.has k = true → pair (laneIn V (w.d + 1) k) (laneIn V w.d k) = w.val fun n => c.lane n k) ∧
      (∀ k < 32, c.active.has k = false → ∀ n ∈ [w.d, w.d + 1], laneIn V n k = if w.last.contains n then 0 else c.lane n k) ∧
      ∀ n, n ≠ w.d → n ≠ w.d + 1 → SMap.find? V n = if w.last.contains n then none else SMap.find? c.grp.v n

def pairWords (d a b : BitVec 6) (la lb x : Bool) : List PairWord :=
  let p (n : BitVec 6) (v : Nat → Word) : Dword := pair (v (n.toNat + 1)) (v n.toNat)
  [⟨.iadd64 d a b la lb x, [a.toNat, a.toNat + 1] ++ if x then [b.toNat] else [b.toNat, b.toNat + 1],
      lastPair a la ++ if x then last1 b lb else lastPair b lb, d.toNat,
      fun v => p a v + if x then (v b.toNat).signExtend 64 else p b v⟩,
    ⟨.isub64 d a b la lb, [a.toNat, a.toNat + 1, b.toNat, b.toNat + 1], lastPair a la ++ lastPair b lb, d.toNat,
      fun v => p a v - p b v⟩,
    ⟨.imadw d a b la lb, [a.toNat, b.toNat, d.toNat, d.toNat + 1], last2 a b la lb, d.toNat,
      fun v => p d v + (v a.toNat).signExtend 64 * (v b.toNat).signExtend 64⟩]

/-- A word that places an outcome into a predicate (R97, R98). -/
structure PredWord where
  i : Instr
  srcs : List Nat
  last : List Nat
  p : Nat
  cmb : Nat
  val : Issuer → Nat → (Nat → Word) → Bool

/-- The active lanes of p[pd] take the outcome under cmb, the others keep what they had; names read for the last time are free; nothing else
changes. -/
def PredWord.Complete (w : PredWord) : Prop :=
  ∀ (s : State) (c : Issuer), Issues s c → LaneReady s c w.srcs [] →
    ∃ (P : SMap Mask) (V : SMap VReg), Completes w.i s c { c.grp.keepNames w.last with p := P, v := V } ∧
      (∀ k < 32, (({ c.grp with p := P } : Group).pred w.p).has k =
        if c.active.has k then
          (match w.cmb with
            | 0 => w.val c k fun n => c.lane n k
            | 1 => (c.grp.pred w.p).has k && w.val c k fun n => c.lane n k
            | 2 => (c.grp.pred w.p).has k || w.val c k fun n => c.lane n k
            | _ => (c.grp.pred w.p).has k != w.val c k fun n => c.lane n k)
        else (c.grp.pred w.p).has k) ∧
      (∀ q, q ≠ w.p → ({ c.grp with p := P } : Group).pred q = c.grp.pred q) ∧
      ∀ n, SMap.find? V n = if w.last.contains n then none else SMap.find? c.grp.v n

def predWords (p : BitVec 3) (a b : BitVec 6) (la lb : Bool) (m : BitVec 2) (k : BitVec 3) (f : BitVec 2) (q r : BitVec 3) :
    List PredWord :=
  let w (i : Instr) (g : Word → Word → Bool) : PredWord :=
    ⟨i, [a.toNat, b.toNat], last2 a b la lb, p.toNat, m.toNat, fun _ _ v => g (v a.toNat) (v b.toNat)⟩
  [w (.icmp p a b la lb m k) (icmpCond true k.toNat), w (.icmpn p a b la lb m k) (icmpCond false k.toNat),
    w (.fcmp p a b la lb m k) (fcmpCond k.toNat), w (.testb p a b la lb m) fun x y => x.getLsbD (y.toNat % 32),
    ⟨.plog p f q r m, [], [], p.toNat, m.toNat,
      fun c k _ =>
        let x := (c.grp.pred q.toNat).has k
        let y := (c.grp.pred r.toNat).has k
        match f.toNat with | 0 => x && y | 1 => x || y | 2 => x != y | _ => x && !y⟩]

/-- A kind-L word of a function unit or the divider (R81, R86, R94). -/
structure UnitWord where
  i : Instr
  legal : Fmt → Bool
  srcs : List Nat
  last : List Nat
  d : Nat
  val : Issuer → (Nat → Word) → Word

/-- The word is outstanding under the next number with one result for each active lane, v[d] keeps its mapping until they have been
written (R67), names read for the last time are free, nothing else changes. -/
def UnitWord.Complete (w : UnitWord) : Prop :=
  ∀ (s : State) (c : Issuer), Issues s c → w.legal c.fmt = true → c.active ≠ 0 → c.badLanes w.srcs &&& c.active = 0 →
    s.alloc c.team c.grp [w.d] 1 = .ok →
    ∃ (o : LOp) (V : SMap VReg),
      Completes w.i s c { c.grp.keepNames w.last with v := V, ops := c.grp.ops ++ [o], nextOp := c.grp.nextOp + 1 } ∧
      o.id = c.grp.nextOp ∧ o.kind = .unit ∧ o.dests = [w.d] ∧ o.pc = c.pc ∧
      o.res = c.active.lanes.map (fun k => (k, [w.val c fun n => c.lane n k])) ∧
      ∀ n, SMap.find? V n = if w.last.contains n then none else SMap.find? c.grp.v n

def unitWords (d a b : BitVec 6) (la lb x : Bool) : List UnitWord :=
  let u (i : Instr) (legal : Fmt → Bool) (g : Fmt → Word → Nat) : UnitWord :=
    ⟨i, legal, [a.toNat], last1 a la, d.toNat, fun c v => BitVec.ofNat 32 (flush c.fmt.ftz (g c.fmt (v a.toNat)))⟩
  [⟨.idivn d a b la lb x, Fmt.any, [a.toNat, b.toNat], last2 a b la lb, d.toNat,
      fun _ v => if x then BitVec.ofNat 32 ((v a.toNat).toNat % (v b.toNat).toNat)
        else if v b.toNat = 0 then 0xFFFFFFFF#32 else BitVec.ofNat 32 ((v a.toNat).toNat / (v b.toNat).toNat)⟩,
    ⟨.fdiv d a b la lb, Fmt.rmOk, [a.toNat, b.toNat], last2 a b la lb, d.toNat, fun c v => fDiv c.fmt (v a.toNat) (v b.toNat)⟩,
    u (.frcp d a la) Fmt.rmOk fun f x => fp32.div f.rm (.fin false 1 0) (f32 x),
    u (.frsq d a la) Fmt.any fun _ x => frsq (Config.rsqBits x).toNat (f32 x),
    u (.fsqrt d a la) Fmt.rmOk fun f x => fp32.sqrt f.rm (f32 x),
    u (.fexp2 d a la) Fmt.any fun _ x => fexp2 (Config.exp2Bits x).toNat (f32 x),
    u (.flog2 d a la) Fmt.any fun _ x => flog2 (Config.log2Bits x).toNat (f32 x),
    u (.fsin d a la) Fmt.any fun _ x => fsincos false (Config.sinBits x).toNat (f32 x),
    u (.fcos d a la) Fmt.any fun _ x => fsincos true (Config.cosBits x).toNat (f32 x),
    u (.ftanh d a la) Fmt.any fun _ x => ftanh (Config.tanhBits x).toNat (f32 x)]

end Sys2Proof.Machine
end

