-- ==== Sys2Proof/Safety/CrossTables.lean ====
section
/-! DEFINITION. The words that work across lanes and the memory lane words, in tables for the statements. -/
namespace Sys2Proof.Machine

/-! ### Across lanes (R99 to R103) -/

/-- The running value of R99 from carry x over some lanes, lowest first. -/
def fold (f : Word → Word → Word) (x : Word) (v : Nat → Word) (ks : List Nat) : Word := ks.foldl (fun acc k => f acc (v k)) x

/-- A word whose value in a lane depends on the lanes of one source: some value, or none where the lane keeps what it had. `val` is given the
set of lanes it executes over; `sread` says that the word reads S(r). -/
structure CrossWord where
  i : Instr
  legal : Fmt → Bool
  srcs : List Nat
  last : List Nat
  d : Nat
  r : Nat
  sread : Bool
  val : Issuer → Mask → Nat → Option Word

/-- What a word of this table does over the lanes E, in the group G. -/
def CrossWord.Does (w : CrossWord) (s : State) (c : Issuer) (E : Mask) (G : Group) : Prop :=
  ∃ V : SMap VReg, Completes w.i s c { G.keepNames w.last with v := V } ∧
    (∀ k < 32, laneIn V w.d k =
      match (if E.has k then w.val c E k else none) with
      | some x => x
      | none => if w.last.contains w.d then 0 else c.lane w.d k) ∧
    ∀ n, n ≠ w.d → SMap.find? V n = if w.last.contains n then none else SMap.find? c.grp.v n

/-- It completes over the active lanes, the operand S(r) there and unpoisoned. -/
def CrossWord.Complete (w : CrossWord) : Prop :=
  ∀ (s : State) (c : Issuer), Issues s c → w.legal c.fmt = true → LaneReady s c w.srcs [w.d] →
    (w.sread = true → c.grp.sbad.contains w.r = false ∧ c.grp.sComing w.r = false) → w.Does s c c.active c.grp

/-- The member-masked form, where no other split shares a lane with the mask (R103): E is the mask filtered by ACT and guard. A split that waits
for this one elsewhere will raise MEMBER (R104). -/
def CrossWord.CompleteAlone (w : CrossWord) : Prop :=
  ∀ (s : State) (c : Issuer), Issues s c →
    let mm := c.grp.sreg (w.r + 1)
    let E := mm &&& c.active
    mm &&& ~~~c.grp.alive = 0 → (∀ e ∈ c.grp.splits, e.1 ≠ c.sid → e.2.st = .parent ∨ e.2.mask &&& mm = 0) →
    (∀ e ∈ c.grp.splits, e.2.memberAt ≠ some (c.pc, mm)) → E ≠ 0 → c.grp.vBusy w.d = false → s.alloc c.team c.grp (c.needs [w.d]) (c.needs [w.d]).length = .ok →
    c.badLanes w.srcs &&& E = 0 → c.grp.sbad.contains (w.r + 1) = false → c.grp.sComing (w.r + 1) = false →
    (w.sread = true → c.grp.sbad.contains w.r = false ∧ c.grp.sComing w.r = false) →
    w.Does s c E (c.grp.arriveElsewhere c.sid c.spl.mask c.pc mm)

/-- SCAN, SCANX, PREV and NEXT (R99, R100). -/
def scanWords (d a r : BitVec 6) (la : Bool) (m : BitVec 3) : List CrossWord :=
  let v (c : Issuer) (k : Nat) : Word := c.lane a.toNat k
  let x (c : Issuer) : Word := c.grp.sreg r.toNat
  let w (i : Instr) (legal : Fmt → Bool) (f : Issuer → Mask → Nat → Option Word) : CrossWord :=
    ⟨i, legal, [a.toNat], last1 a la, d.toNat, r.toNat, true, f⟩
  [w (.scan d a r la m) (scanLegal m) fun c E k => some (fold (scanOp c.fmt m.toNat) (x c) (v c) (E.lanes.filter (· ≤ k))),
    w (.scanx d a r la m) (scanLegal m) fun c E k => some (fold (scanOp c.fmt m.toNat) (x c) (v c) (E.lanes.filter (· < k))),
    w (.prevLane d a r la) Fmt.any fun c E k => some (match (E.lanes.filter (· < k)).getLast? with | some j => v c j | none => x c),
    w (.nextLane d a r la) Fmt.any fun c E k => some (match (E.lanes.filter (k < ·)).head? with | some j => v c j | none => x c)]

/-- The shuffles (R101), in the plain form and the member-masked one: the source lane, if it exists and takes part. -/
def shuffleWords (d a r : BitVec 6) (la g : Bool) : List CrossWord :=
  let n (c : Issuer) : Nat := (c.grp.sreg r.toNat).toNat % 32
  let from' (c : Issuer) (E : Mask) (j : Nat) : Option Word := if E.has j then some (c.lane a.toNat j) else none
  let w (i : Instr) (f : Issuer → Mask → Nat → Option Word) : CrossWord := ⟨i, Fmt.any, [a.toNat], last1 a la, d.toNat, r.toNat, true, f⟩
  [w (.shup d a r la g) fun c E k => if n c ≤ k then from' c E (k - n c) else none,
    w (.shdn d a r la g) fun c E k => if k + n c < 32 then from' c E (k + n c) else none,
    w (.bfly d a r la g) fun c E k => from' c E (k ^^^ n c),
    w (.bcastl d a r la g) fun c E _ => from' c E (n c),
    ⟨.perm d a r la g, Fmt.any, [a.toNat, d.toNat], last1 a la, d.toNat, r.toNat, false,
      fun c E k => from' c E ((c.lane d.toNat k).toNat % 32)⟩]

/-! ### Memory words (R132 to R148) -/

/-- A global memory word: its access size, registers, what it is, and for each lane its address, data and compare value. -/
structure GlobalWord where
  i : Instr
  kind : LKind
  size : Nat
  srcs : List Nat
  base : Option Nat
  last : List Nat
  dests : List Nat
  ea : Issuer → Nat → Dword
  data : Issuer → Nat → List Byte
  cmp : Issuer → Nat → Word

/-- Nothing holds a memory word back: no acquire before it still lacks a value (R145), its base and registers are there, no source is poisoned
in an active lane, and the core's transaction table has an entry for every lane (R140). -/
structure MemReady (s : State) (c : Issuer) (srcs : List Nat) (base : Option Nat) (dests : List Nat) : Prop where
  active : c.active ≠ 0
  free : c.behindAcquire = false
  room : s.alloc c.team c.grp dests dests.length = .ok
  clean : c.badLanes srcs &&& c.active = 0
  basePure : ∀ b, base = some b → ∀ n ∈ [b, b + 1], c.grp.sbad.contains n = false ∧ c.grp.sComing n = false
  entries : c.active.lanes.length ≤ s.entriesFree c.team.core

/-- The accesses of an instruction numbered n: the halves of each lane's (R244), in program order at n. -/
def accesses (n : Nat) (as : List LaneAcc) : List LaneAcc := (as.flatMap LaneAcc.halves).map fun a => { a with ord := n }

/-- Every active lane's address is aligned and lies in an ordinary window (R134, R135): the word is outstanding with one access for each
active lane, or two for 16 bytes (R244), lowest lane first; its destinations keep their mappings for now (R67); memory and every other register stay. -/
def GlobalWord.Complete (w : GlobalWord) : Prop :=
  ∀ (s : State) (c : Issuer), Issues s c → MemReady s c w.srcs w.base w.dests →
    (∀ k, c.active.has k = true → windowOf (w.ea c k).toNat < 2 ∧ (w.ea c k).toNat % w.size = 0) →
    ∃ (o : LOp) (V : SMap VReg),
      Completes w.i s c { c.grp.keepNames w.last with v := V, ops := c.grp.ops ++ [o], nextOp := c.grp.nextOp + 1 } ∧
      o.id = c.grp.nextOp ∧ o.kind = w.kind ∧ o.dests = w.dests ∧
      o.accs = accesses c.grp.nextOp (c.active.lanes.map fun k => LaneAcc.new k w.size (w.ea c k) none (w.data c k) (w.cmp c k)) ∧
      ∀ n, SMap.find? V n = if w.last.contains n then none else SMap.find? c.grp.v n

/-- S64(base) + sext(V(a)[k]) + imm5 × size (R133). -/
def globalEa (r : BitVec 4) (a : BitVec 6) (imm size : Nat) (c : Issuer) (k : Nat) : Dword :=
  c.grp.spair (2 * r.toNat) + (c.lane a.toNat k).signExtend 64 + BitVec.ofNat 64 (imm * size)

/-- The low n bytes of lane k of the registers from t (R138). -/
def laneData (t : BitVec 6) (n : Nat) (c : Issuer) (k : Nat) : List Byte :=
  ((List.range ((n + 3) / 4)).flatMap fun j => wordBytes (c.lane (j + t.toNat) k)).take n

/-- R137, R145, R148: loads. -/
def globalLoads (t a : BitVec 6) (r : BitVec 4) (la : Bool) (imm : BitVec 5) (sc : BitVec 3) : List GlobalWord :=
  let w (i : Instr) (n : Nat) (sgn acq : Bool) (off : Nat) : GlobalWord :=
    ⟨i, .load n sgn acq, n, [a.toNat], some (2 * r.toNat), last1 a la, regsFrom t ((n + 3) / 4), globalEa r a off n, fun _ _ => [], fun _ _ => 0⟩
  [w (.ldg8n t a r la imm) 1 false false imm.toNat, w (.ldg8i t a r la imm) 1 true false imm.toNat,
    w (.ldg16n t a r la imm) 2 false false imm.toNat, w (.ldg16i t a r la imm) 2 true false imm.toNat,
    w (.ldg32 t a r la imm) 4 false false imm.toNat, w (.ldg64 t a r la imm) 8 false false imm.toNat,
    w (.ldg128 t a r la imm) 16 false false imm.toNat, w (.lda32 t a r la sc) 4 false true 0, w (.lda64 t a r la sc) 8 false true 0,
    ⟨.ldf32 t a la imm, .load 4 false false, 4, [a.toNat, a.toNat + 1], none, lastPair a la, [t.toNat],
      fun c k => pair (c.lane (a.toNat + 1) k) (c.lane a.toNat k) + BitVec.ofNat 64 (imm.toNat * 4), fun _ _ => [], fun _ _ => 0⟩]

/-- R138, R145, R148: stores. -/
def globalStores (t a : BitVec 6) (r : BitVec 4) (la : Bool) (imm : BitVec 5) (sc : BitVec 3) : List GlobalWord :=
  let w (i : Instr) (n : Nat) (rel : Option Nat) (off : Nat) : GlobalWord :=
    ⟨i, .store rel, n, a.toNat :: regsFrom t ((n + 3) / 4), some (2 * r.toNat), last1 a la, [], globalEa r a off n, laneData t n, fun _ _ => 0⟩
  [w (.stg8 t a r la imm) 1 none imm.toNat, w (.stg16 t a r la imm) 2 none imm.toNat, w (.stg32 t a r la imm) 4 none imm.toNat,
    w (.stg64 t a r la imm) 8 none imm.toNat, w (.stg128 t a r la imm) 16 none imm.toNat,
    w (.stl32 t a r la sc) 4 (some sc.toNat) 0, w (.stl64 t a r la sc) 8 (some sc.toNat) 0,
    ⟨.stf32 t a la imm, .store none, 4, [a.toNat, a.toNat + 1, t.toNat], none, lastPair a la, [],
      fun c k => pair (c.lane (a.toNat + 1) k) (c.lane a.toNat k) + BitVec.ofNat 64 (imm.toNat * 4), laneData t 4, fun _ _ => 0⟩]

/-- R146: atomics and reductions; cas compares with v[t+1]. -/
def globalAtomics (t a : BitVec 6) (r : BitVec 4) (la : Bool) (code : BitVec 5) : List GlobalWord :=
  let w (i : Instr) (result : Bool) : GlobalWord :=
    ⟨i, .atomic code.toNat result, 4, a.toNat :: regsFrom t (if code = 12 then 2 else 1), some (2 * r.toNat), last1 a la,
      if result then [t.toNat] else [], globalEa r a 0 4, laneData t 4, fun c k => if code = 12 then c.lane (t.toNat + 1) k else 0⟩
  [w (.atomg t a r la code) true, w (.redg t a r la code) false]

/-- A pad word of the issuing team's own pad (R142): selector 0. -/
structure PadWord where
  i : Instr
  kind : LKind
  size : Nat
  srcs : List Nat
  r : Nat
  last : List Nat
  dests : List Nat
  off : Issuer → Nat → Int
  data : Issuer → Nat → List Byte
  cmp : Issuer → Nat → Word

/-- The accesses of the active lanes, lowest lane first. -/
def PadWord.all (w : PadWord) (c : Issuer) : List LaneAcc :=
  c.active.lanes.map fun k => LaneAcc.new k w.size (BitVec.ofInt 64 (w.off c k)) (some c.tid) (w.data c k) (w.cmp c k)

/-- Every active lane's offset lies in the pad and is aligned: one access for each active lane at its offset; of a store's lanes that
write one place only the highest is kept (R138). -/
def PadWord.Complete (w : PadWord) : Prop :=
  ∀ (s : State) (c : Issuer), Issues s c → MemReady s c w.srcs (some w.r) w.dests → c.grp.sreg (w.r + 1) = 0 →
    (∀ k, c.active.has k = true → 0 ≤ w.off c k ∧ w.off c k + w.size ≤ c.team.padSize ∧ w.off c k % w.size = 0) →
    ∃ (o : LOp) (V : SMap VReg),
      Completes w.i s c { c.grp.keepNames w.last with v := V, ops := c.grp.ops ++ [o], nextOp := c.grp.nextOp + 1 } ∧
      o.id = c.grp.nextOp ∧ o.kind = w.kind ∧ o.dests = w.dests ∧
      o.accs = (accesses c.grp.nextOp (w.all c)).filter (fun a => w.kind != .padStore ||
        !(accesses c.grp.nextOp (w.all c)).any fun b => decide (a.lane < b.lane) && a.ea == b.ea) ∧
      ∀ n, SMap.find? V n = if w.last.contains n then none else SMap.find? c.grp.v n

/-- S(base) + sext(V(a)[k]) + imm5 × size, exact (R133). -/
def padEa (r : BitVec 4) (a : BitVec 6) (imm size : Nat) (c : Issuer) (k : Nat) : Int :=
  ((c.grp.sreg (2 * r.toNat)).toNat : Int) + (c.lane a.toNat k).toInt + (imm * size : Nat)

def padWords (t a : BitVec 6) (r : BitVec 4) (la : Bool) (imm : BitVec 5) (code : BitVec 5) : List PadWord :=
  let ld (i : Instr) (n : Nat) : PadWord :=
    ⟨i, .padLoad (4 * n), 4 * n, [a.toNat], 2 * r.toNat, last1 a la, regsFrom t n, padEa r a imm.toNat (4 * n), fun _ _ => [], fun _ _ => 0⟩
  let st (i : Instr) (n : Nat) : PadWord :=
    ⟨i, .padStore, 4 * n, a.toNat :: regsFrom t n, 2 * r.toNat, last1 a la, [], padEa r a imm.toNat (4 * n), laneData t (4 * n), fun _ _ => 0⟩
  [ld (.ldp32 t a r la imm) 1, ld (.ldp64 t a r la imm) 2, ld (.ldp128 t a r la imm) 4, st (.stp32 t a r la imm) 1,
    st (.stp64 t a r la imm) 2, st (.stp128 t a r la imm) 4,
    ⟨.atomp t a r la code, .padAtomic code.toNat, 4, a.toNat :: regsFrom t (if code = 12 then 2 else 1), 2 * r.toNat, last1 a la,
      [t.toNat], padEa r a 0 4, laneData t 4, fun c k => if code = 12 then c.lane (t.toNat + 1) k else 0⟩]

end Sys2Proof.Machine
end

