-- ==== Sys2Proof/Safety/GroupTables.lean ====
section
/-! DEFINITION. The group words in tables for the statements: uniform arithmetic, transfers, waits, tile and engine commands. -/
namespace Sys2Proof.Machine

/-! ### Uniform arithmetic (R107 to R111) -/

/-- A group word S(d) := a value of the s registers. -/
structure SWord where
  i : Instr
  legal : Fmt → Bool
  reads : List Nat
  d : Nat
  val : Fmt → (Nat → Word) → Word

/-- S(d) takes the value, free of poison; every other s register and everything else of the machine stays. -/
def SWord.Complete (w : SWord) : Prop :=
  ∀ (s : State) (c : Issuer), Issues s c → w.legal c.fmt = true → WordReady c w.reads [w.d] →
    ∃ (S : SMap Word) (B : List Nat), Completes w.i s c { c.grp with s := S, sbad := B } ∧
      SMap.getD S w.d 0 = w.val c.fmt c.grp.sreg ∧ (∀ n, n ≠ w.d → SMap.getD S n 0 = c.grp.sreg n) ∧
      w.d ∉ B ∧ ∀ n, n ≠ w.d → (n ∈ B ↔ n ∈ c.grp.sbad)

/-- A poisoned source raises ECC and nothing is executed (R243). -/
def SWord.Poisoned (w : SWord) : Prop :=
  ∀ (s : State) (c : Issuer), Issues s c → Handled s c → w.legal c.fmt = true → w.reads.any c.grp.sComing = false →
    (∃ n ∈ w.reads, n ∈ c.grp.sbad) →
    ∃ t, exec w.i s = .next t ∧ Taken t c .ecc c.spl.act c.pc ∧ SameMemory s t ∧ ∃ G, t.group? c.tid c.gid = some G ∧ G.s = c.grp.s

def s2 (i : Instr) (d a b : BitVec 6) (f : Word → Word → Word) : SWord :=
  ⟨i, Fmt.any, [a.toNat, b.toNat], d.toNat, fun _ v => f (v a.toNat) (v b.toNat)⟩
def s1 (i : Instr) (d a : BitVec 6) (f : Word → Word) : SWord := ⟨i, Fmt.any, [a.toNat], d.toNat, fun _ v => f (v a.toNat)⟩

/-- R108: two sources. -/
def uniformWords (d a b : BitVec 6) (k : Bool) (cc : BitVec 3) : List SWord :=
  [s2 (.sadd d a b) d a b fun x y => x + y, s2 (.ssub d a b) d a b fun x y => x - y, s2 (.smul d a b) d a b fun x y => x * y,
    s2 (.smulh d a b k) d a b fun x y =>
      if k then BitVec.ofNat 32 (x.toNat * y.toNat / 2 ^ 32) else BitVec.ofInt 32 (x.toInt * y.toInt / 2 ^ 32),
    s2 (.smin d a b k) d a b fun x y => if (if k then y.ult x else y.slt x) then y else x,
    s2 (.smax d a b k) d a b fun x y => if (if k then x.ult y else x.slt y) then y else x,
    s2 (.sand d a b) d a b fun x y => x &&& y, s2 (.sor d a b) d a b fun x y => x ||| y, s2 (.sxor d a b) d a b fun x y => x ^^^ y,
    s2 (.sshl d a b) d a b fun x y => if 32 ≤ y.toNat then 0 else x <<< y.toNat,
    s2 (.sshr d a b) d a b fun x y => if 32 ≤ y.toNat then 0 else x >>> y.toNat,
    s2 (.sshra d a b) d a b fun x y => x.sshiftRight (min y.toNat 31),
    s2 (.scmp d a b cc) d a b fun x y =>
      if (match cc.toNat with
        | 0 => x == y | 1 => x != y | 2 => x.slt y | 3 => x.sle y | 4 => y.slt x | 5 => y.sle x | 6 => x.ult y | _ => y.ule x)
      then 1 else 0,
    ⟨.sfadd d a b, Fmt.rmOk, [a.toNat, b.toNat], d.toNat,
      fun f v => f.round32 f.rm (FV.add f.rm (f32 (v a.toNat)) (f32 (v b.toNat)))⟩,
    ⟨.sfmul d a b, Fmt.rmOk, [a.toNat, b.toNat], d.toNat, fun f v => f.round32 f.rm (FV.mul (f32 (v a.toNat)) (f32 (v b.toNat)))⟩]

/-- R108, R110, R111: one source, or an immediate. -/
def uniformImms (d a : BitVec 6) (imm : BitVec 16) (n : BitVec 5) (l : Word) : List SWord :=
  [s1 (.spopc d a) d a fun x => BitVec.ofNat 32 ((List.range 32).countP fun i => x.getLsbD i),
    s1 (.sff1 d a) d a fun x => BitVec.ofNat 32 (((List.range 32).find? fun i => x.getLsbD i).getD 32),
    ⟨.smovi d imm, Fmt.any, [], d.toNat, fun _ _ => imm.signExtend 32⟩,
    s1 (.smovhi d imm) d d fun x => halves imm.toNat (half x 0), s1 (.saddi d imm) d d fun x => x + imm.signExtend 32,
    s1 (.sandi d imm) d d fun x => x &&& imm.setWidth 32, s1 (.sori d imm) d d fun x => x ||| imm.setWidth 32,
    s1 (.sxori d imm) d d fun x => x ^^^ imm.setWidth 32, s1 (.sshli d n) d d fun x => x <<< n.toNat,
    s1 (.sshri d n) d d fun x => x >>> n.toNat, s1 (.smuli d imm) d d fun x => x * imm.signExtend 32,
    ⟨.smov32 d l, Fmt.any, [], d.toNat, fun _ _ => l⟩, s1 (.sadd32 d l) d d fun x => x + l]

/-! ### Transfers of control (R111, R112) -/

/-- A transfer: the s registers it reads and the address it goes on at. -/
structure Jump where
  i : Instr
  reads : List Nat
  goal : Issuer → Dword

/-- The split goes on at the goal; nothing else changes. -/
def Jump.Complete (w : Jump) : Prop :=
  ∀ (s : State) (c : Issuer), Issues s c → WordReady c w.reads [] →
    exec w.i s = .next (s.becomes c (c.advanced s (w.goal c) c.grp))

/-- BRA, BZ, BNZ, BVOTE, BRA.L: the target is PC + 4 + 4 × off17, or PC + 8 + 4 × imm32. -/
def jumps (a : BitVec 6) (o : BitVec 17) (l : Word) (t : BitVec 2) (p : BitVec 3) : List Jump :=
  let goal (c : Issuer) : Dword := c.pc + 4 + 4 * o.signExtend 64
  let lanes (c : Issuer) : Mask := c.spl.act &&& c.grp.pred p.toNat
  [⟨.bra o, [], goal⟩, ⟨.bz a o, [a.toNat], fun c => if c.grp.sreg a.toNat = 0 then goal c else c.next⟩,
    ⟨.bnz a o, [a.toNat], fun c => if c.grp.sreg a.toNat ≠ 0 then goal c else c.next⟩,
    ⟨.braL l, [], fun c => c.pc + 8 + 4 * l.signExtend 64⟩,
    ⟨.bvote t p o, [], fun c =>
      if (match t.toNat with | 0 => lanes c == c.spl.act | 1 => lanes c != 0 | _ => lanes c == 0) then goal c else c.next⟩]

/-! ### Waits (R33, R121 to R125) -/

/-- The instruction issues; its split is BLOCKED on a wait and then goes on at the next instruction. -/
def Waits (i : Instr) (s : State) (c : Issuer) (w : Wait) (G : Group) : Prop :=
  exec i s = .next (s.becomes c
    ((c.advanced s c.next G).modSplit c.sid fun e => { e with wait := w, st := .blocked }))

/-! ### Engine commands (R154, R155) -/

/-- The command is numbered on the context and everything else happens at the next instruction: the future, if the word has one, is
(identifier << 40) | number. -/
def Numbered (i : Instr) (s : State) (c : Issuer) (ctx : Nat) (q : Option Nat) (cmd : ECmd) : Prop :=
  ∃ x, s.ectxs.find? ctx = some x ∧
    let G := match q with
      | some r => c.grp.setQ r (BitVec.ofNat 64 (ctx * 2 ^ 40 + (x.issued + 1) % 2 ^ 40))
      | none => c.grp
    ∃ t : State, exec i s = .next (t.becomes c (c.advanced s c.next G)) ∧
      (∃ o : EOp, t.ectxs = s.ectxs.modify ctx (fun x => { x with issued := x.issued + 1, pend := x.pend ++ [o] }) ∧
        o.num = x.issued + 1 ∧ o.cmd = cmd ∧ o.team = c.tid ∧ o.grp = c.gid ∧ o.core = c.team.core ∧ o.space = c.team.space ∧
        o.ord = s.nextOrd ∧ o.running = false) ∧
      t.nextOrd = s.nextOrd + 1 ∧ t.teams = s.teams ∧ t.mem = s.mem ∧ t.pkg = s.pkg

/-- A command word: the s registers it reads, its tiles with their kinds, what it needs beyond, its context and its command. -/
structure Command where
  i : Instr
  reads : List Nat
  tiles : List (Nat × Option Nat)
  ok : State → Issuer → Bool
  ctx : State → Issuer → Nat
  q : Option Nat
  cmd : State → Issuer → (Nat → Nat) → ECmd

/-- The slot that a t register names. -/
def slotAt (s : State) (c : Issuer) (r : Nat) : Nat := ((s.tile? c r).map Prod.fst).getD 0

/-- A context with room: it holds fewer than 64 operations that have not started (R154). -/
def Roomy (s : State) (ctx : Nat) : Prop := ∃ x, s.ectxs.find? ctx = some x ∧ x.full = false

/-- Every handle is live and its slot has the kind the entry requires (R159). -/
def TilesOk (s : State) (c : Issuer) (ts : List (Nat × Option Nat)) : Prop :=
  ∀ r ∈ ts, ∃ n t, s.tile? c r.1 = some (n, t) ∧ ∀ k, r.2 = some k → t.kind = k

def Command.Complete (w : Command) : Prop :=
  ∀ (s : State) (c : Issuer), Issues s c → w.reads.any c.grp.sComing = false → w.reads.any c.grp.sbad.contains = false →
    TilesOk s c w.tiles → w.ok s c = true →
    Roomy s (w.ctx s c) → Numbered w.i s c (w.ctx s c) w.q (w.cmd s c (slotAt s c))

/-- A handle that is not live raises STALE at issue, before anything else happens (R4, R20). -/
def Command.Stale (w : Command) : Prop :=
  ∀ (s : State) (c : Issuer), Issues s c → Handled s c → w.reads.any c.grp.sComing = false → (∃ r ∈ w.tiles, s.tile? c r.1 = none) →
    (∀ r ∈ w.tiles, ∀ k, r.2 = some k → s.kindWrong c r.1 k = false) → w.ok s c = true →
    ∃ t, exec w.i s = .next t ∧ Taken t c .stale c.spl.act c.pc ∧ SameMemory s t

/-- GE commands (R184 to R198, R202). -/
def copyCommands (q : BitVec 4) (a b : BitVec 6) (t : BitVec 5) (r : BitVec 6) (d : BitVec 3) : List Command :=
  let cop (_ : State) (c : Issuer) : Nat := c.grp.cctx
  let gat (_ : State) (c : Issuer) : Nat := c.grp.gctx
  let yes (_ : State) (_ : Issuer) : Bool := true
  [⟨.cpy q a b d, b.toNat :: sFrom a (4 + 3 * d.toNat), [],
      fun _ c => windowOf (c.desc64 a 0).toNat < 2 && windowOf (c.desc64 a 2).toNat < 2, cop, some q.toNat,
      fun _ c _ => .cpy (c.desc64 a 0) (c.desc64 a 2) (c.grp.sreg b.toNat).toNat (c.levels a d.toNat) false⟩,
    ⟨.tld q a t r, sFrom a 3, [(t.toNat, none)], yes, cop, some q.toNat,
      fun _ c f => .tld (f t.toNat) (r.toNat + 1) (c.desc64 a 0) (c.grp.sreg (a.toNat + 2)).toInt⟩,
    ⟨.tst q a t r, sFrom a 3, [(t.toNat, none)], yes, cop, some q.toNat,
      fun _ c f => .tst (f t.toNat) (r.toNat + 1) (c.desc64 a 0) (c.grp.sreg (a.toNat + 2)).toInt⟩,
    ⟨.sigf q a b r, b.toNat :: (b.toNat + 1) :: sFrom a 7, [], yes, gat, some q.toNat,
      fun _ c _ => .sigf (c.desc64 a 0) (c.desc a 2) (c.desc a 3) (c.desc64 a 4) (c.desc a 6) (c.grp.spair b.toNat) r.toNat⟩,
    ⟨.pagein q a, sFrom a 4, [], yes, cop, some q.toNat, fun _ c _ => .pagein (c.desc64 a 0) (c.desc a 2) (c.desc a 3)⟩,
    ⟨.kvrel q a, sFrom a 4, [], yes, gat, some q.toNat, fun _ c _ => .kvrel (c.desc64 a 0) (c.desc a 2) (c.desc a 3)⟩,
    ⟨.kvapp q a t, sFrom a 3, [(t.toNat, some 0), (t.toNat + 1, some 0)], fun _ c => countOk (c.desc a 2), gat, some q.toNat,
      fun _ c f => .kvapp (c.desc64 a 0) (c.desc a 2) (.tiles (f t.toNat) (f (t.toNat + 1)))⟩,
    ⟨.kvappMem q a, sFrom a 6, [], fun _ c => countOk (c.desc a 2), gat, some q.toNat,
      fun _ c _ => .kvapp (c.desc64 a 0) (c.desc a 2) (.memory (c.desc64 a 4))⟩,
    ⟨.kvflush q a, sFrom a 2, [], yes, cop, some q.toNat, fun _ c _ => .kvflush (c.desc64 a 0)⟩,
    ⟨.rpub q a t, sFrom a 2, [(t.toNat, some 0), (t.toNat + 1, some 3)],
      fun _ c => match c.grp.step with | some x => !x.closing && x.record == (c.desc64 a 0).toNat | none => false, cop, some q.toNat,
      fun _ c f => .rpub (c.desc64 a 0) ((c.grp.step.map RopeStep.member).getD 15) (f t.toNat) (f (t.toNat + 1))⟩]

/-- GATH in its range and its list form, and the commands of the fabric and the encoders (R188, R189, R194). -/
def farCommands (q : BitVec 4) (a b : BitVec 6) (t : BitVec 5) (v : BitVec 3) (l : Bool) (d : BitVec 3) (k : BitVec 2) : List Command :=
  let fab (s : State) (c : Issuer) : Nat := s.fctxOf c.team
  [⟨.gath q a t v l, sFrom a (if l then 6 else 4), [(t.toNat, some 2), (t.toNat + 1, some 2), (t.toNat + 2, some 5)],
      fun _ c => c.fmt.elemOk && countOk (c.desc a 3), fun _ c => c.grp.gctx, some q.toNat,
      fun _ c f => .gath (f t.toNat) (f (t.toNat + 1)) (f (t.toNat + 2)) (c.desc64 a 0) (c.desc a 2) (c.desc a 3)
        (if l then some (c.desc64 a 4) else none) v.toNat c.spl.fmt⟩,
    ⟨.cpyf q a b d, b.toNat :: sFrom a (4 + 3 * d.toNat), [],
      fun _ c => (windowOf (c.desc64 a 0).toNat == 2 && windowOf (c.desc64 a 2).toNat < 2) ||
        (windowOf (c.desc64 a 2).toNat == 2 && windowOf (c.desc64 a 0).toNat < 2), fab, some q.toNat,
      fun _ c _ => .cpy (c.desc64 a 0) (c.desc64 a 2) (c.grp.sreg b.toNat).toNat (c.levels a d.toNat) true⟩,
    ⟨.mcst q a b, b.toNat :: sFrom a 4, [],
      fun _ c => windowOf (c.desc64 a 0).toNat < 2 && windowOf (c.desc64 a 2).toNat == 3, fab, some q.toNat,
      fun _ c _ => .mcst (c.desc64 a 0) (c.desc64 a 2) (c.grp.sreg b.toNat).toNat⟩,
    ⟨.coll q a k, sFrom a 6, [], fun _ c => c.desc a 5 < 4096, fab, some q.toNat,
      fun _ c _ => .coll k.toNat (c.desc64 a 0) (c.desc64 a 2) (c.desc a 4) (c.desc a 5)⟩,
    ⟨.enc q a b, b.toNat :: sFrom a 2, [],
      fun s c => (s.session? c.team.space ((c.grp.sreg b.toNat).toNat % 2 ^ 24)).isSome,
      fun _ c => (c.grp.sreg b.toNat).toNat % 2 ^ 24, some q.toNat,
      fun _ c _ => .enc (c.desc64 a 0) ((c.grp.sreg b.toNat).toNat % 2 ^ 24)⟩]

/-- Tile vector commands and SIGQ (R165, R173, R177 to R181), on the group's matrix context. -/
def tileCommands (d a b : BitVec 5) (n f1 cvt : Bool) (c3 : BitVec 3) (k2 f2 : BitVec 2) (k4 : BitVec 4) (row : BitVec 6) : List Command :=
  let mat (_ : State) (c : Issuer) : Nat := c.grp.mctx
  let yes (_ : State) (_ : Issuer) : Bool := true
  let w (i : Instr) (ts : List (Nat × Option Nat)) (ok : State → Issuer → Bool) (cmd : State → Issuer → (Nat → Nat) → ECmd) : Command :=
    ⟨i, [], ts, ok, mat, none, cmd⟩
  [w (.tzero d) [(d.toNat, none)] yes fun _ _ f => .tzero (f d.toNat),
    w (.tcomp d a b) [(d.toNat, some 1), (a.toNat, some 1), (b.toNat, some 4)] (fun _ c => c.fmt.elemOk)
      fun _ c f => .tcomp (f d.toNat) (f a.toNat) (f b.toNat) c.spl.fmt,
    w (.tsoft d a b f1 c3) [(d.toNat, some 1), (a.toNat, some 0), (b.toNat, some 3)]
      (fun _ c => c.fmt.floatElems && c3.toNat < ktOf c.fmt.ma / 64)
      fun _ c f => .tsoft (f d.toNat) (f a.toNat) (f b.toNat) c3.toNat f1 c.spl.fmt,
    w (.tscale d a b n) ([(d.toNat, some 0), (b.toNat, some 3)] ++ if n then [] else [(a.toNat, some 0)]) yes
      fun _ _ f => .tscale (f d.toNat) (if n then none else some (f a.toNat)) (f b.toNat),
    w (.tnorm d a b) [(d.toNat, some 0), (a.toNat, some 0), (b.toNat, some 3)] yes
      fun _ _ f => .tnorm (f d.toNat) (f a.toNat) (f b.toNat),
    w (.trowred d a k2) [(d.toNat, some 0), (a.toNat, some 0)] yes fun _ _ f => .trowred (f d.toNat) (f a.toNat) k2.toNat,
    w (.tew d a b cvt f2 k4) ([(d.toNat, some (if cvt then 1 else 0)), (a.toNat, some 0)] ++
        if f2 = 3 then [] else [(b.toNat, some (if k4 = 8 then 5 else 0))]) (fun _ c => !cvt || c.fmt.floatElems)
      fun _ c f => .tew (f d.toNat) (f a.toNat) (if f2 = 3 then 0 else f b.toNat) k4.toNat f2.toNat cvt c.spl.fmt,
    w (.vtot d b row) [(d.toNat, none)]
      (fun _ c => ((c.grp.v.getD (2 * b.toNat) VReg.zero).bad ||| (c.grp.v.getD (2 * b.toNat + 1) VReg.zero).bad) &&& c.spl.act == 0)
      fun _ c f => .vtot (f d.toNat) row.toNat (c.grp.v.getD (2 * b.toNat) VReg.zero) (c.grp.v.getD (2 * b.toNat + 1) VReg.zero) c.spl.act]

/-- The scale registers of A and of B (R170), and that they exist, are clean, and no lane instruction in the pipes still writes them (R18). -/
def scales (c : Issuer) (lo : Nat) : List Nat := scaleRegs (c.grp.scv.toNat / 2 ^ lo % 64) c.fmt
def scalesOk (c : Issuer) (packed : Bool) : Bool :=
  ((scales c 0 ++ if packed then [] else scales c 8).all fun n => n ≤ 63 && !c.grp.vWalking n && (c.grp.v.getD n VReg.zero).bad == 0)
def scaleVals (c : Issuer) (lo : Nat) : List VReg := (scales c lo).map fun n => c.grp.v.getD n VReg.zero

/-- MMA, MMA.wb, MMAS and SIGQ outside a braid (R168, R172, R181). A weight-buffer entry must be loaded by the address space with the
width of FMT.ma (R169); a pack with its own scales takes B's from there (R171). -/
def matrixCommands (d a b : BitVec 5) (r : BitVec 2) : List Command :=
  let mat (_ : State) (c : Issuer) : Nat := c.grp.mctx
  let packed (s : State) (c : Issuer) : Bool := match s.entry? c.team.core b.toNat with | some w => w.scale != 0 | none => false
  [⟨.mma d a b false false r, [], [(d.toNat, some 0), (a.toNat, some 1), (b.toNat, some 2)],
      fun _ c => c.fmt.mmaOk r.toNat && scalesOk c false, mat, none,
      fun _ c f => .mma (f d.toNat) (f a.toNat) (f b.toNat) none none c.spl.fmt r.toNat (scaleVals c 0) (scaleVals c 8) 0⟩,
    ⟨.mma d a b true false r, [], [(d.toNat, some 0), (a.toNat, some 1)],
      fun s c => c.fmt.mmaOk r.toNat && scalesOk c (packed s c) && match s.entry? c.team.core b.toNat with
        | some w => w.width == c.fmt.ma && w.space == c.team.space
        | none => false, mat, none,
      fun s c f => .mma (f d.toNat) (f a.toNat) b.toNat ((s.entry? c.team.core b.toNat).map fun x => (x.compressed, x.scale)) none
        c.spl.fmt r.toNat (scaleVals c 0) (if packed s c then [] else scaleVals c 8) 0⟩,
    ⟨.mmas d a b false r, [], [(d.toNat, some 0), (a.toNat, some 1), (a.toNat + 1, some 2), (b.toNat, some 4)],
      fun _ c => c.fmt.mmaOk r.toNat && scalesOk c false, mat, none,
      fun _ c f => .mma (f d.toNat) (f a.toNat) (f (a.toNat + 1)) none (some (f b.toNat)) c.spl.fmt r.toNat (scaleVals c 0) (scaleVals c 8) 0⟩,
    ⟨.sigq d a b, [], [(d.toNat, some 5), (a.toNat, some 1), (b.toNat, some 2)],
      fun _ c => c.fmt.mmaOk 0 && scalesOk c false, mat, none,
      fun _ c f => .sigq (f d.toNat) (f a.toNat) (f b.toNat) c.spl.fmt (scaleVals c 0) (scaleVals c 8)⟩]

/-- The braided forms of MMA, MMA.wb and MMAS (R174), with the B operand that the knot compares: the command in the knot
is the plain one's. -/
def braidCommands (d a b : BitVec 5) (r : BitVec 2) : List (Instr × Option Command × Bool × (State → Issuer → Nat)) :=
  let ws := matrixCommands d a b r
  [(.mma d a b false true r, ws[0]?, false, fun s c => slotAt s c b.toNat), (.mma d a b true true r, ws[1]?, true, fun _ _ => b.toNat),
    (.mmas d a b true r, ws[2]?, false, fun s c => slotAt s c (a.toNat + 1))]

/-- A matrix command of braided set n. -/
def ECmd.ofBraid (n : Nat) : ECmd → ECmd
  | .mma d a b wb m f r sa sb _ => .mma d a b wb m f r sa sb n
  | x => x

/-- The members of a knot agree with the issuing split's BRD, B and FMT, and are of its team (R174). -/
def Agrees (c : Issuer) (wb : Bool) (b : Nat) (k : KnotMember) : Prop :=
  k.team = c.tid ∧ k.grp ≠ c.gid ∧ k.brd = c.grp.brd ∧ k.wb = wb ∧ k.b = b ∧ k.fmt.extractLsb' 3 11 = c.spl.fmt.extractLsb' 3 11

/-! ### Sequence records (R199 to R201) -/

/-- A sequence record of an address space: aligned, readable, without bit errors, active in the package scheduler's table (R293). -/
structure RecordAt (s : State) (space rec k : Nat) (r : Rec) (q : Seq) : Prop where
  aligned : rec % 256 = 0
  window : windowOf rec < 2
  reached : s.translate space rec .read false = .hit k
  clean : s.poisoned k 128 = false
  plain : ∀ x ∈ wordsOf k 128, x ∉ s.latent
  parsed : r = parseRec (s.bytes k 128)
  active : s.seqs.find? (seqKey space rec) = some q

/-- The record that a step instruction names, which is not being retired (R320). -/
structure AtRecord (s : State) (c : Issuer) (rec k : Nat) (r : Rec) (q : Seq) : Prop where
  record : RecordAt s c.team.space rec k r q
  kept : q.retiring = false

end Sys2Proof.Machine
end

