-- ==== Sys2Proof/Safety/SplitTables.lean ====
section
/-! DEFINITION. What splits and special registers do, for the statements: dividing, leaving, the numbers of R25, R220 and R282. -/
namespace Sys2Proof.Machine

/-! ### Splits (R27 to R31) -/

/-- The child entry of a division for one target (R28). -/
def Issuer.child (c : Issuer) (o : Dword × Mask) (e : Split) : Prop :=
  e.mask = o.2 ∧ e.act = o.2 ∧ e.pc = o.1 ∧ e.jpc = c.spl.jpc ∧ e.fmt = c.spl.fmt ∧ e.parent = c.sid ∧ e.tof = false ∧ e.prog = none ∧
    (if c.m then e.st = .blocked ∧ e.mark = some c.grp.nextOp else e.st = .ready ∧ e.mark = none)

/-- The issuing split has divided (R28): it is a parent with its JPC, FMT and lanes; the children take the lowest-numbered FREE entries, in the
order of their targets; no other entry changes, and nothing else of the machine. -/
def Divides (i : Instr) (s : State) (c : Issuer) (outs : List (Dword × Mask)) : Prop :=
  ∃ (G : Group) (ns : List Nat), exec i s = .next (s.becomes c { c.advanced s c.next c.grp with splits := G.splits }) ∧
    (∃ e, G.splits.find? c.sid = some e ∧ e.st = .parent ∧ e.jpc = c.spl.jpc ∧ e.fmt = c.spl.fmt ∧ e.mask = c.spl.mask ∧
      e.parent = c.spl.parent) ∧
    ns.length = outs.length ∧ ns.Pairwise (· < ·) ∧ (∀ n ∈ ns, n < 64 ∧ c.grp.splits.find? n = none) ∧
    (∀ n < 64, c.grp.splits.find? n = none → n ∈ ns ∨ ∀ m ∈ ns, m < n) ∧
    (∀ (i : Nat) (o : Dword × Mask) (n : Nat), outs[i]? = some o → ns[i]? = some n → ∃ e, G.splits.find? n = some e ∧ c.child o e) ∧
    ∀ n, n ≠ c.sid → n ∉ ns → G.splits.find? n = c.grp.splits.find? n

/-- The issuing split has room to divide and no child of its own. -/
def Issuer.mayDivide (c : Issuer) (n : Nat) : Prop :=
  c.grp.splits.length + n ≤ 64 ∧ ∀ x ∈ c.grp.splits, x.1 ≠ c.sid → x.2.parent ≠ c.sid

/-- Apart from the entries `gone` and the one that merges, R30 and R31 have nothing to do: every entry has active lanes, or is a parent
with a child that stays and has not arrived. -/
def Undisturbed (G : Group) (gone : List Nat) (merged : Option Nat) : Prop :=
  SMap.sorted G.splits = true ∧ G.splits.length ≤ 64 ∧ ∀ e ∈ G.splits, e.1 ∉ gone → some e.1 ≠ merged →
    (e.2.st ≠ .parent ∧ e.2.mask ≠ 0 ∧ e.2.act ≠ 0) ∨
    (e.2.st = .parent ∧ ∃ x ∈ G.splits, x.1 ∉ gone ∧ x.1 ≠ e.1 ∧ x.2.parent = e.1 ∧ x.2.st ≠ .arrived ∧ x.2.st ≠ .frozen)

/-- A word of memory that an instruction of the issuer reads through an access (R115, R124): where it is, and its value. It holds no bit error
to correct (R243). -/
def Issuer.reads (c : Issuer) (s : State) (a : Dword) (x : Access) (w : Word) : Prop :=
  windowOf a.toNat < 2 ∧ ∃ k, s.translate c.team.space a.toNat x c.grp.privileged = .hit k ∧ s.poisoned k 4 = false ∧
    (∀ x ∈ wordsOf k 4, x ∉ s.latent) ∧ w = bytesWord (s.bytes k 4)

/-! ### Special registers -/

/-- The numbers that any group reads (R25), CLK apart, for a group of launch L. -/
def userNumbers (c : Issuer) (L : Launch) : List (Nat × Word) :=
  let lo (x : Dword) : Word := x.setWidth 32
  let hi (x : Dword) : Word := (x >>> 32).setWidth 32
  let cix : Dword := BitVec.ofNat 64 c.team.cix
  [(0x000, c.spl.act), (0x001, c.spl.fmt.setWidth 32), (0x002, c.grp.fr.flt), (0x003, c.grp.fr.pix), (0x004, c.grp.fr.skid),
    (0x005, lo c.grp.fr.fpc), (0x006, hi c.grp.fr.fpc), (0x007, c.grp.fr.fcause), (0x008, c.grp.brd), (0x009, c.grp.scv),
    (0x00A, c.grp.jto), (0x00B, BitVec.ofNat 32 c.gid),
    (0x00C, BitVec.ofNat 32 (c.team.tx + 2 ^ 4 * c.team.ty + 2 ^ 16 * L.width + 2 ^ 20 * L.height)), (0x00D, lo cix), (0x00E, hi cix),
    (0x00F, BitVec.ofNat 32 L.desc), (0x010, c.grp.alive),
    (0x011, BitVec.ofNat 32 (c.team.padBase % 2 ^ 16 + 2 ^ 16 * (c.team.padSize / 64))), (0x013, c.grp.clkh),
    (0x020, BitVec.ofNat 32 c.grp.mctx), (0x021, BitVec.ofNat 32 c.grp.cctx), (0x022, BitVec.ofNat 32 c.grp.gctx)]

/-- The numbers that a handler reads besides (R220, R282), for what its entry set aside and the group H that HGSEL selects. The resume PC is
FPC where the lane instruction that raised stands stopped, else that of the split. -/
def handlerNumbers (c : Issuer) (x : Saved) (H : Group) : List (Nat × Word) :=
  let lo (x : Dword) : Word := x.setWidth 32
  let hi (x : Dword) : Word := (x >>> 32).setWidth 32
  let rpc : Dword := match SMap.find? x.splits x.handled with
    | some e => if e.walks.any fun p => p.pc == c.grp.fr.fpc then c.grp.fr.fpc else e.pc
    | none => 0
  let hpc : Dword := H.hpc
  let f := c.grp.fr
  [(0x100, c.grp.tvsel), (0x101, laneIn x.v (c.grp.tvsel.toNat % 64) (c.grp.tvsel.toNat / 256 % 32)), (0x102, c.grp.hgsel), (0x103, lo hpc), (0x104, hi hpc),
    (0x105, BitVec.ofNat 32 (H.haltSkid % 256 + 2 ^ 8 * (H.haltCause % 256) + if H.pending = [] then 0 else 2 ^ 16)),
    (0x106, lo rpc), (0x107, hi rpc), (0x108, lo f.fopn), (0x109, hi f.fopn), (0x10A, f.fopc), (0x10B, lo f.faddr), (0x10C, hi f.faddr),
    (0x10D, f.fit.getD 0 0), (0x10E, f.fit.getD 1 0), (0x10F, f.fit.getD 2 0), (0x110, f.fit.getD 3 0), (0x111, f.fit.getD 4 0)]

end Sys2Proof.Machine
end

