-- ==== Sys2Proof/Safety/EventTables.lean ====
section
/-! DEFINITION. What the events of the table are about, and what they leave, for the statements. -/
namespace Sys2Proof.Machine

/-! ### Splits -/

/-- The event is about a split of a team on a core. -/
structure AtSplit (s : State) (t g i : Nat) (T : Team) (G : Group) (e : Split) : Prop where
  ev : s.ev = .split t g i
  team : s.teams.find? t = some T
  here : T.here = true
  group : T.groups.find? g = some G
  split : G.splits.find? i = some e

/-- Time is not before d. -/
def State.from (s : State) (d : Nat) : State := { s with now := max s.now d }

/-- The split's wait is over: it is READY, unless a marker still parks it; nothing else of it changes, and from u nothing else of the
machine. -/
def Frees (x : Instr) (s u : State) (t g i : Nat) (e : Split) (mark : Option Nat) : Prop :=
  ∃ b, exec x s = .next (u.modSplit t g i fun _ =>
    { e with wait := .none, mark := mark, st := if mark.isNone then .ready else .blocked, back := b })

/-- Lanes of a mask that some splits hold. -/
def lanesOf (mm : Mask) (es : List (Nat × Split)) : Mask := es.foldl (fun m e => m ||| (e.2.mask &&& mm)) 0

/-! ### Lanes of kind-L instructions -/

/-- Lane k is one of an outstanding instruction of a resident group whose destinations no other outstanding instruction writes. -/
structure LaneOf (s : State) (t g id k : Nat) (T : Team) (G : Group) (o : LOp) : Prop where
  team : s.teams.find? t = some T
  here : T.here = true
  group : T.groups.find? g = some G
  op : G.op? id = some o
  lane : k < 32
  only : ∀ x ∈ G.ops, x ≠ o → x.id ≠ id ∧ ∀ d ∈ o.dests, d ∉ x.dests
  named : o.dests.Nodup ∧ o.nv.length = o.dests.length
  mine : o.handler = true → G.privileged = true

/-- The event is about that lane. -/
structure AtLane (s : State) (t g id k : Nat) (T : Team) (G : Group) (o : LOp) : Prop where
  ev : s.ev = .lane t g id k
  at_ : LaneOf s t g id k T G o

/-- The event is about an access of such a lane, or about one half of it, which it names by its tag (R244). -/
structure AtAccess (s : State) (t g id : Nat) (T : Team) (G : Group) (o : LOp) (a : LaneAcc) : Prop where
  ev : s.ev = .lane t g id a.tag
  at_ : LaneOf s t g id a.lane T G o
  acc : o.accs.find? (fun b => b.tag == a.tag) = some a

/-- Lane k of instruction id has these words, the i0-th and those after it: in its new registers, or, once the instruction is complete, under
the names it writes (R21 item 3, R137). -/
def Given (u : State) (t g id k : Nat) (o : LOp) (i0 : Nat) (ws : List Word) : Prop :=
  ∃ G, u.group? t g = some G ∧
    ((∃ x, G.op? id = some x ∧ x.dests = o.dests ∧ x.wrote.has k = true ∧
        ∀ j < ws.length, ∀ r, x.nv[i0 + j]? = some r → r.lane k = ws.getD j 0) ∨
      ((∀ x, G.op? id = some x → x.dests = []) ∧
        ∀ j < ws.length, ∀ n, o.dests[i0 + j]? = some n → laneIn (G.mapFor o.handler) n k = ws.getD j 0))

/-- The event gives lane k its words from the i0-th on; the group keeps every other register. -/
def Gives (x : Instr) (s u : State) (t g id k : Nat) (G : Group) (o : LOp) (i0 : Nat) (ws : List Word) : Prop :=
  exec x s = .next u ∧ Given u t g id k o i0 ws ∧ ∃ H, u.group? t g = some H ∧ H.s = G.s ∧ H.p = G.p ∧ H.q = G.q ∧ H.t = G.t ∧
    ∀ h n, (h = o.handler → n ∉ o.dests) → (∀ y ∈ G.ops, y ≠ o → y.handler = h → n ∉ y.dests) →
      SMap.find? (H.mapFor h) n = SMap.find? (G.mapFor h) n

/-- The event is the package scheduler's answer to an instruction that waits for nothing else: none before it is to write its s registers. -/
structure Asked (s : State) (t g id : Nat) (T : Team) (G : Group) (o : LOp) (a : LaneAcc) : Prop where
  ev : s.ev = .op t g id
  team : s.teams.find? t = some T
  here : T.here = true
  group : T.groups.find? g = some G
  op : G.op? id = some o
  acc : o.accs.find? (fun b => b.tag == 0) = some a
  view : o.kind.isView = true
  free : a.token = none
  only : ∀ x ∈ G.ops, x ≠ o → x.id ≠ id
  turn : ∀ x ∈ G.ops, x.id < id → ∀ n ∈ o.sdests, n ∉ x.sdests

/-- Memory is as before outside n bytes at a key, and holds these bytes there. -/
def Stored (s u : State) (key : Nat) (bs : List Byte) : Prop :=
  ∀ a, memByte u.mem a = if key ≤ a ∧ a < key + bs.length then bs.getD (a - key) 0 else memByte s.mem a

/-- The words that a load's bytes make (R137): zero- or sign-extended below 4 bytes, else one word for each 4. -/
def wordsOfLoad (size : Nat) (signed : Bool) (bs : List Byte) : List Word :=
  match size with
  | 1 => [if signed then (BitVec.ofNat 8 (bytesNat bs)).signExtend 32 else BitVec.ofNat 32 (bytesNat bs)]
  | 2 => [if signed then (BitVec.ofNat 16 (bytesNat bs)).signExtend 32 else BitVec.ofNat 32 (bytesNat bs)]
  | n => (List.range (n / 4)).map fun i => bytesWord ((bs.drop (4 * i)).take 4)

/-! ### Engine operations -/

/-- The event is about an operation of an engine context. -/
structure AtEngine (s : State) (ctx num : Nat) (x : ECtx) (o : EOp) : Prop where
  ev : s.ev = .engine ctx num
  ctx : s.ectxs.find? ctx = some x
  op : x.pend.find? (fun o => o.num == num) = some o

/-- The operation has left its context, the next in order; the counter has reached its number; nothing else is known to have failed. -/
structure Counted (u : State) (ctx : Nat) (x : ECtx) (num : Nat) (failed : List FailRec) : Prop where
  holds : ∃ y, u.ectxs.find? ctx = some y ∧ y.counter = num ∧ y.issued = x.issued ∧ y.failed = x.failed ++ failed ∧
    y.pend = x.pend.filter fun o => o.num != num

/-! ### Teams -/

/-- Nothing of the team is still to be brought to an end before it is saved: no buffered store, no place in a knot, no skid, no running tile
vector operation that stops at a row (R203, R251, R286). -/
def Quiet (s : State) (t : Nat) (T : Team) : Prop :=
  (∀ G ∈ T.groups, G.2.wbuf = []) ∧ (∀ k ∈ (s.core T.core).knot, k.team ≠ t) ∧ T.st.isHalting = false ∧
    ∀ x ∈ s.eops, x.2.team = t → x.2.running = true → x.2.cmd.isRowwise = false

/-- The save pool of the team's function has room for its record, at an offset (R286). -/
def SaveRoom (s : State) (t : Nat) (T : Team) (off : Nat) : Prop := s.saveRoom (s.vfOf T.space) (s.recordSize t T) = some off

/-- Team t has left its core (R285, R286): it is OUT with its pad, hearth registers and barriers; its tiles left their slots, which have
new generations; its record is in the save pool, and no other byte of memory has changed. -/
def SavedOut (s w : State) (t : Nat) (T : Team) (off : Nat) : Prop :=
  ∃ X, w.teams.find? t = some X ∧ X.st = .out (T.st == .halted) ∧ X.pad = T.pad ∧ X.hearth = T.hearth ∧ X.bars = T.bars ∧ X.slots = T.slots ∧
    X.saveAt = off ∧ X.saveSize = s.recordSize t T ∧
    (∀ n ∈ T.slots, ∀ x, SMap.find? (s.core T.core).tiles n = some x → SMap.find? X.tiles n = some x ∧
      SMap.find? (w.core T.core).tiles n = some { x with alloc := false, busy := true, gen := (x.gen + 1) % 256 }) ∧
    (w.core T.core).handler ≠ some t ∧ w.mem = (s.writeRecord t T off).mem ∧
    ((∀ x ∈ s.record t T, x.1 + x.2.length ≤ s.recordSize t T) → ∀ p, s.pkg.savePools.find? (s.vfOf T.space) = some p →
      ∀ a, ¬ (p.1 + off ≤ a ∧ a < p.1 + off + s.recordSize t T) → memByte w.mem a = memByte s.mem a)

/-! ### Placement -/

/-- A command link once the package scheduler has sent message m down it (R312): with a permit it is in the sector's buffer. -/
def CmdLink.asked (k : CmdLink) (m : Nat) : CmdLink := k.setSide false ((k.side false).send m)

/-- The next cluster of launch l, of which L has placed so many, stands on a rectangle with its teams, its groups at the kernel's entry, and
will start at s.now + 1000 ns by message `msg` (R19, R25, R27, R266, R268, R313). -/
def HoldsCluster (s u : State) (M : Launch) (l : Nat) (L : Launch) (sector x0 y0 msg : Nat) : Prop :=
  u.mem = s.mem ∧ u.nextTeam = s.nextTeam + L.width * L.height ∧
  M.clusters.find? L.placed = some ⟨sector, x0, y0, (List.range (L.width * L.height)).map (s.nextTeam + ·), [], msg, s.now + 18 * 1000⟩ ∧
  ∀ x < L.width, ∀ y < L.height, ∃ T, u.teams.find? (s.nextTeam + (y * L.width + x)) = some T ∧ T.st = .placed ∧ T.launch = l ∧
    T.space = L.space ∧ T.core = 24 * sector + 4 * (y0 + y) + (x0 + x) ∧ T.cix = L.placed ∧ T.tx = x ∧ T.ty = y ∧ T.quota = L.tiles ∧
    T.padSize = 64 * L.pad ∧ T.pad = [] ∧ T.hearth = [] ∧ T.slots = [] ∧ T.groups.map Prod.fst = List.range L.groups ∧
    ∀ G ∈ T.groups, G.2.alive = 0xFFFFFFFF#32 ∧ G.2.v = [] ∧ G.2.s = [] ∧ G.2.p = [] ∧ G.2.t = [] ∧ G.2.floor = L.regs ∧
      ∃ e, G.2.splits = [(0, e)] ∧ e.mask = 0xFFFFFFFF#32 ∧ e.act = 0xFFFFFFFF#32 ∧ e.pc = L.entry ∧ e.jpc = 0 ∧ e.fmt = 0 ∧
        e.parent = 0 ∧ e.st = .ready

/-! ### Queues -/

/-- An aligned access of a queue's owner that meets its byte. -/
def State.reads (s : State) (space va : Nat) (k : Nat) : Prop := s.translate space va .read false = .hit k ∧ windowOf va < 2
def State.writes (s : State) (space va : Nat) (k : Nat) : Prop := s.translate space va .write false = .hit k ∧ windowOf va < 2

/-- The packet at the consumer index of a queue that runs is `bs`, of `type`, well formed; the packet and the read word can be reached
(R259, R260). -/
structure Taking (s : State) (q : Nat) (Q : Queue) (x : ECtx) (type : Nat) (bs : List Byte) (kr : Nat) : Prop where
  ev : s.ev = .queue q
  queue : s.queues.find? q = some Q
  ctx : s.ectxs.find? Q.ectx = some x
  runs : Q.stopped = false ∧ Q.miss = none ∧ Q.stopAfter = none ∧ Q.avail ≠ 0
  kept : Q.arm = [] ∧ Q.loose = 0
  aligned : Q.slotAddr Q.cons % 64 = 0 ∧ Q.read.toNat % 4 = 0
  packet : ∃ k, s.reads Q.space (Q.slotAddr Q.cons) k ∧ s.poisoned k 64 = false ∧ bs = s.bytes k 64
  formed : packetOk bs = true ∧ fieldAt bs 0 1 = type
  read : s.writes Q.space Q.read.toNat kr

/-- The packet has been taken: the queue goes on at the next, and the packet has its number on the queue's context. -/
def TakenOff (u : State) (q : Nat) (Q : Queue) (x : ECtx) : Prop :=
  ∃ P y, u.queues.find? q = some P ∧ u.ectxs.find? Q.ectx = some y ∧ P.cons = (Q.cons + 1) % 2 ^ 32 ∧ y.issued = x.issued + 1

/-! ### Admin commands -/

/-- The event is about a command of the admin ring with this code that is well formed, whose turn has come, and which has begun or
not (R315, R316). -/
structure AtCommand (s : State) (code : Nat) (c : AdminCmd) (began : Bool) : Prop where
  turn : ∃ i, s.ev = .cmd i false ∧ s.pkg.cmds[i]? = some c
  code : c.code = code
  starts : s.pkg.mayStart c = true
  formed : c.formed = true
  mode : s.pkg.stage ≠ 10
  began : c.began = began
  num : ∀ x ∈ s.pkg.cmds, x ≠ c → x.num ≠ c.num
  settled : ∀ x ∈ s.pkg.cmds, x ≠ c → s.pkg.refusesNow x = none

/-- The command completes with a status and a result in a state w that its work has made: the completion's 8 bytes, vector 0, M1
extended where R331 says so, whatever the status, and the command is gone (R316). -/
def Finishes (i : Instr) (s : State) (c : AdminCmd) (status result : Nat) (w : State) : Prop :=
  exec i s = .next { w.store (hostKey + c.f 48 8) (natBytes 4 status ++ natBytes 4 result) with
    pkg := { (if c.code ∈ [0x01, 0x03, 0x07, 0x08, 0x0B, 0x0C, 0x0D] then
        { w.pkg with m1 := sha256 (w.pkg.m1 ++ c.bytes.take 4 ++ List.replicate 4 0 ++ (c.bytes.drop 8).take 40 ++ List.replicate 8 0 ++
            c.bytes.drop 56) }
      else w.pkg) with
      msix := w.pkg.msix ++ [0], cmds := w.pkg.cmds.filter fun x => x.num != c.num } }

/-! ### The fabric -/

/-- The event is a packet that this device receives on a port that is UP (R340, R343). -/
structure AtPacket (s : State) (i : Nat) (x : Packet) (type : Nat) (mc : Bool) : Prop where
  ev : s.ev = .portPacket i x
  up : (s.port i).st = .up
  legal : packetReserved x = false
  type : x.type.toNat = type
  mc : x.mc = mc
  mine : x.mc = true ∨ x.target.toNat = s.pkg.peer

/-- Byte o of a line as a payload carries it: one word for each set bit of the mask, in order (R342). -/
def carried (mask : Dword) (payload : List Word) (o : Nat) : Byte :=
  (wordBytes (payload.getD ((List.range (o / 4)).filter fun i => mask.getLsbD i).length 0)).getD (o % 4) 0

/-- A packet has left as the answer to a request (R339, R342). -/
def Replies (s u : State) (x : Packet) (type status : Nat) (mask : Dword) (payload : List Word) : Prop :=
  ∃ y, u.fab.out = s.fab.out ++ [y] ∧ y.type.toNat = type ∧ y.status.toNat = status ∧ y.seq = x.seq ∧ y.epoch = x.epoch ∧ y.line = x.line ∧
    y.domain = x.domain ∧ y.mc = x.mc ∧ y.target = (if x.mc then x.target else x.source) ∧ y.source.toNat = s.pkg.peer % 4096 ∧
    y.mask = mask ∧ y.payload = payload ∧ y.trimmed = false ∧ y.hp = (type == 8)

/-- A request that is new to its source's window, and that no earlier one holds back (R344, R345). -/
structure FreshRequest (s : State) (x : Packet) : Prop where
  whole : x.trimmed = false
  new : (s.windowFor x).done x.seq.toNat = false
  alone : (s.windowFor x).held = [] ∧ (s.windowFor x).waits = []
  turn : x.pv = false ∨ (s.windowFor x).done x.prior.toNat = true

/-- An export grants a request its line, and the line has a key (R345). -/
structure Exported (s : State) (x : Packet) (writes : Bool) (e : Export) (key : Nat) : Prop where
  entry : ∃ i, (i, e) ∈ s.pkg.exports ∧ ∀ y ∈ s.pkg.exports, y.2.valid = true → y.2.domain = x.domain.toNat → y = (i, e)
  valid : e.valid = true
  domain : e.domain = x.domain.toNat
  live : e.revoked = false
  inside : x.line.toNat < e.size
  writable : writes = true → e.ro = false
  hit : s.translate e.space (e.base + x.line.toNat) (if writes then .write else .read) false = .hit key
  tier : ∃ l, s.leafAt e.space (e.base + x.line.toNat) = some l ∧ fld l 52 4 = 3

/-- An answer for this device's epoch to an unacknowledged packet whose end has not come. -/
structure Answers (s : State) (x : Packet) (key : Nat) (u : Unacked) : Prop where
  packet : s.unacked? key x.seq.toNat = some u
  epoch : x.epoch.toNat = s.pkg.epoch
  open_ : u.ended = none

/-- An engine operation once a packet of it has failed with FABRIC at an address: the lowest stays (R188), and a CPYF's vector is that of the
step it was in (R156, R185). -/
def EOp.failedAt (o : EOp) (a : Nat) : EOp := match o.failure with
  | none => { o with failure := some (.fabric, a), prog := match o.cmd with
    | .cpy _ _ _ _ _ => o.prog - 1
    | _ => o.prog }
  | some (c, b) => { o with failure := if c = .fabric then some (c, min b a) else some (c, b) }

/-- A kept flit that its receiver has not acknowledged (R338). -/
def Port.open_ (p : Port) (f : Flit) : Prop := (f.seq + 4096 - p.acked) % 4096 < (p.txSeq + 4096 - p.acked) % 4096

/-- The packet is no longer unacknowledged. -/
def Acked (s w : State) (key seq : Nat) : Prop :=
  ∀ r, s.fab.runs.find? key = some r → r.waiting = [] →
    w.fab.runs.find? key = some { r with flight := r.flight.filter fun u => u.pkt.seq.toNat != seq }

/-- A packet goes out again on some plane: its timeout begins again (R347). -/
def SentAgain (s w : State) (key : Nat) (u : Unacked) (plane : Nat → Prop) : Prop :=
  ∃ y v, w.fab.out = s.fab.out ++ [y] ∧ plane y.plane.toNat ∧ y = { u.pkt with plane := y.plane, lowack := y.lowack } ∧
    w.unacked? key u.pkt.seq.toNat = some v ∧ v.pkt = y ∧ v.deadline = w.now + 900000 ∧ v.resendAt = none ∧ v.origin = u.origin

/-- Event area and index word of a fabric context can be reached: where the next record goes and where the index lies (R350). -/
structure EventRoom (s : State) (space : Nat) (x : FabCtx) (ki ke : Nat) : Prop where
  aligned : x.index.toNat % 4 = 0 ∧ x.events.toNat % 64 = 0
  index : s.reads space x.index.toNat ki ∧ s.writes space x.index.toNat ki
  clean : s.poisoned ki 4 = false
  slot : s.writes space (x.events.toNat + 64 * (s.nat ki 4 % 64)) ke
  whole : s.poisoned ke 64 = false
  after : ∀ r : List Byte, r.length = 64 → (s.store ke r).writes space x.index.toNat ki
  apart : ke + 64 ≤ ki ∨ ki + 4 ≤ ke

/-- A record has been written and the index has advanced; no other byte has changed. -/
def Recorded (s w : State) (ki ke : Nat) (record : List Byte) : Prop :=
  w.bytes ke 64 = record ∧ w.nat ki 4 = (s.nat ki 4 + 1) % 2 ^ 32 ∧
    ∀ a, ¬ (ke ≤ a ∧ a < ke + 64) → ¬ (ki ≤ a ∧ a < ki + 4) → memByte w.mem a = memByte s.mem a

/-- The ports are listed in order, and are those that exist (R333). -/
def State.portsListed (s : State) : Prop := s.fab.ports.sorted = true ∧ ∀ p ∈ s.fab.ports, p.1 < 18

end Sys2Proof.Machine
end

