-- ==== Sys2Proof/Certificates/Slice0/Obligations.lean ====
section
/-! DEFINITION. The statements about the model, for the provers: the machine as a whole, the words of every family, the events of the
table. -/
open Sys2Proof Sys2Proof.Machine

/-! ## The machine as a whole -/

/-- Right after package reset nothing is bound, queued or resident, no byte of memory is listed, package time is 0 (R327, R311, R365), and
memory has its canonical form.
That host memory reads 0 is the model's choice (log entry 3), as are the fields of its own (log entry 2). -/
def Obligations.ResetState : Prop :=
  State.reset.wf ∧ State.reset.teams = [] ∧ State.reset.queues = [] ∧ State.reset.ctxs = [] ∧ State.reset.launches = [] ∧
    State.reset.now = 0 ∧ State.reset.pkg.stage = 0 ∧ (∀ a, memByte State.reset.mem a = 0) ∧ (∀ a n, State.reset.poisoned a n = false) ∧
    (∀ d, SMap.getD State.reset.pkg.shares d 0 = 0) ∧ ∀ k, State.reset.link k = ⟨16, [], [], 16, [], []⟩

/-- Every step keeps memory in its canonical form: addresses strictly rising, no byte listed that an unlisted address reads as.
The form is the model's own way to hold memory. -/
def Obligations.StepKeepsMemoryForm : Prop := ∀ s t : State, s.wf → Sys2Proof.Machine.step s = .next t → t.wf

/-- With nothing on the agenda and the device's own turn not come, a step runs the instruction that the arbiter's split has at its
address: one word, or two where the first needs a second; a word that is no instruction is ILLEGAL (R57, R63, R64, R274). A lane instruction that
is still in its pipe, or stopped at a lane, goes on without a fetch (R105, R283); one of the same split that issues behind it walks no further
than that has come (R16, R17). The step then closes: waits end, time passes.
When the device's own turn comes, when the writes that a host link has accepted arrive, and that some instructions wait at issue for those
of their split in the pipes, are the model's choices (log entries 1, 6 and 11). -/
def Obligations.StepRunsDecoded : Prop :=
  ∀ (s r : State) (k : Candidate) (e : Split),
    s.agenda = [] → s.pkg.powered = true → s.ownNext = false → s.flushPosted.arbiter false = some (k, r) →
    r.split? k.team k.grp k.split = some e →
    let r' : State := { r with ownNext := (r.issues + 1) % 256 == 0 }
    let goes (f : State → State) (t : State) : Prop := t.pkg.powered = true → Sys2Proof.Machine.step s = .next (s.close (f t))
    (∀ p, e.prog = some p → k.continues = true →
      let q := r'.setCur k.team k.grp k.split p.pc none
      ∀ t, exec p.ins { q with cur := { q.cur with len := p.len, m := p.m, ins := p.ins } } = .next t → goes id t) ∧
    (e.prog = none →
      let q := r'.setCur k.team k.grp k.split e.pc none
      ∀ c, q.issuer? = some c → RunsFetched q c (goes id)) ∧
    ∀ p, e.prog = some p → k.continues = false →
      let reached := (e.walks.getLast?.map Progress.lane).getD 32
      let q := (r'.modSplit k.team k.grp k.split fun e => { e with prog := none, later := e.walks }).setCur k.team k.grp k.split e.pc
        (some (min reached 32))
      ∀ c, q.issuer? = some c →
        RunsFetched q c (goes fun t => t.modSplit k.team k.grp k.split fun e => e.setWalks (e.later ++ e.prog.toList))

/-- R45: an E8M0 scale code e up to 0xFE stands for 2^(e − 127), one with no sign that is never zero, and 0xFF is NaN; I8 spans −128 to 127
and N8 spans 0 to 255. -/
def Obligations.ScaleCodes : Prop :=
  (∀ e < 255, scaleValue 1 e = .fin false 1 ((e : Int) - 127)) ∧ scaleValue 1 0xFF = .nan ∧
    ∀ (f : Fmt) (v : Int), (f.q8 = 2 → ((∃ c < 256, f.int8 c = v) ↔ -128 ≤ v ∧ v ≤ 127)) ∧
      (f.q8 = 3 → ((∃ c < 256, f.int8 c = v) ↔ 0 ≤ v ∧ v ≤ 255))

/-- R11, R364: without power nothing answers but the return of power; the fault is the model's name for that. -/
def Obligations.WithoutPower : Prop :=
  ∀ s : State, s.pkg.powered = false → (∀ a, s.agenda.head? ≠ some (.event .packageReset a)) →
    Sys2Proof.Machine.step s = .fault .noPower

/-! ## Decoding -/

/-- Words written out from the encodings of R58, R59, R71 and R76, one of each format, decode to the instructions they stand for. The bits
are grouped as D, M, F and the fields of the format. -/
def Obligations.WordsDecode : Prop :=
  decodeWord 0b0_0_000_000000_000001_000010_000011_0_0_0 0 = .ok (.iadd 1 2 3 false false false) ∧
  decodeWord 0b0_1_001_00000_000101_1111111111111111 0 = .ok (.movi 5 0xFFFF) ∧
  decodeWord 0b0_0_010_0000_000001_000010_000011_1_0_010 0 = .ok (.ffma 1 2 3 true false 2) ∧
  decodeWord 0b0_0_011_00100_000111_000110_0101_0_00011 0 = .ok (.ldg32 7 6 5 false 3) ∧
  decodeWord 0b0_0_100_000000_000001_000010_1_00000000 0 = .ok (.mov 1 2 true) ∧
  decodeWord 0b0_0_101_00000_010_000001_000011_0_0_01_010 0 = .ok (.icmp 2 1 3 false false 1 2) ∧
  decodeWord 0b0_0_110_00000_000001_000010_000100_0_000 0 = .ok (.scan 1 2 4 false 0) ∧
  decodeWord 0b0_0_111_011_1_00000000000000000000000 0b0_1_001_00000_000101_0000000000000001 = .ok (.guard 3 true 0x48050001#32) ∧
  decodeWord 0b1_0_000_000000_000001_000010_000011_000 0 = .ok (.sadd 1 2 3) ∧
  decodeWord 0b1_0_001_00000_000001_0000000000000111 0 = .ok (.smovi 1 7) ∧
  decodeWord 0b1_0_010_0001_000010_11111111111111111 0 = .ok (.bz 2 0x1FFFF) ∧
  decodeWord 0b1_0_011_00000_00001_00000000000000_010 0 = .ok (.talloc 1 2) ∧
  decodeWord 0b1_0_110_00000_000001_0000000000000000 0x12345678 = .ok (.smov32 1 0x12345678#32) ∧
  decodeWord 0b1_0_111_000000000000000000000000000 0 = .error .reservedFormat

/-- Encoding an instruction and decoding its words gives the instruction and its marker back, with every operand at every value the encoding
admits. Every word that decodes has one meaning: it is the encoding of what it decodes to, which is well formed, and each word of a two-word
instruction keeps all its bits. -/
def Obligations.RoundTrips : Prop :=
  (∀ (m : Bool) (i : Instr) (w : Word) (ws : List Word), i.wellFormed = true → encode m i = w :: ws →
    decodeWord w.toNat (ws.headD 0).toNat = .ok i ∧ needsSecond w.toNat = !ws.isEmpty ∧
      ((∀ p n x, i ≠ .guard p n x) → markerOf w.toNat (ws.headD 0).toNat = m)) ∧
  (∀ (w v : Word) (i : Instr), decodeWord w.toNat v.toNat = .ok i →
    i.wellFormed = true ∧ encode (markerOf w.toNat v.toNat) i = if needsSecond w.toNat then [w, v] else [w])

/-! ## Lane words -/

/-- R83, R84, R88, R89: integer and logical words, those with an immediate among them. R90, R92, R93, R96: multiply-add, bit-field insert,
byte permute, select, and the words of one source. -/
def Obligations.IntegerAndMoveWords : Prop :=
  ((∀ d a b la lb x, ∀ w ∈ intWords d a b la lb x, w.Complete) ∧ ∀ d imm n, ∀ w ∈ immWords d imm n, w.Complete) ∧
  (∀ d a b la lb h p, ∀ w ∈ moveWords d a b la lb h p, w.Complete)

/-- R87, R88, R90 to R92: FP32 and packed half arithmetic, each result one rounding of the exact one (R47). R53, R95, R96: dot products,
each one rounding of the exact sum, and conversions. -/
def Obligations.FloatWords : Prop :=
  (∀ d a b la lb x r imm, ∀ w ∈ floatWords d a b la lb x r imm, w.Complete) ∧
  (∀ d a b la lb h e r n, ∀ w ∈ convertWords d a b la lb h e r n, w.Complete)

/-- R26: a word that uses a field of FMT holding a reserved code raises ILLEGAL, and nothing is executed. R62: GUARD applies a predicate to
the lane word behind it: the word executes over the lanes of ACT in which the predicate, or its complement, holds, as one instruction of two
words. Any other word is ILLEGAL. -/
def Obligations.ReservedAndGuarded : Prop :=
  ((∀ d a b la lb x r imm, ∀ w ∈ floatWords d a b la lb x r imm, w.Reserved) ∧
    ∀ d a b la lb h e r n, ∀ w ∈ convertWords d a b la lb h e r n, w.Reserved) ∧
  (∀ (s : State) (p : BitVec 3) (n : Bool) (x : Word),
    let q : State := { s with cur := { s.cur with len := 8, m := x.getLsbD 30, guard := some (p, n) } }
    (∀ (j : Instr) (r : Res), decodeWord x.toNat 0 = .ok j → laneExec j q = some r → exec (.guard p n x) s = r ∧ exec j q = r) ∧
    (∀ (c : Issuer) (d a b : BitVec 6), Issues q c → x = 0#2 ++ 0#3 ++ 0#6 ++ d ++ a ++ b ++ 0#3 →
      LaneReady q c [a.toNat, b.toNat] [d.toNat] →
      ∃ V : SMap VReg, exec (.guard p n x) s = .next (q.becomes c (c.advanced q (c.pc + 8) { c.grp.keepNames [] with v := V })) ∧
        (∀ k < 32, laneIn V d.toNat k =
          if c.spl.act.has k && ((c.grp.pred p.toNat).has k != n) then c.lane a.toNat k + c.lane b.toNat k else c.lane d.toNat k) ∧
        ∀ m, m ≠ d.toNat → SMap.find? V m = SMap.find? c.grp.v m) ∧
    ∀ c : Issuer, Issues q c → Handled q c → (∀ j, decodeWord x.toNat 0 = .ok j → laneExec j q = none) →
      ∃ t : State, exec (.guard p n x) s = .next t ∧ Taken t c .illegal c.spl.act c.pc ∧ SameMemory s t)

/-- R85, R90: 64-bit sums and differences of pairs, and the wide multiply-add. R97, R98: compares, bit tests and predicate logic place their
outcome under the combiner in p0 to p6; with pd = 7, a reserved value, they are no instructions (R60, R64). -/
def Obligations.PairAndPredicateWords : Prop :=
  (∀ d a b la lb x, ∀ w ∈ pairWords d a b la lb x, w.Complete) ∧
  (∀ p a b la lb m k f q r, ∀ w ∈ predWords p a b la lb m k f q r, (p ≠ 7 → w.Complete) ∧ (p = 7 → w.i.wellFormed = false))

/-- R81, R86, R94: the divider and the function units take a word's lanes; the results are written later (R67). -/
def Obligations.UnitWords : Prop := ∀ d a b la lb x, ∀ w ∈ unitWords d a b la lb x, w.Complete

/-- R99 to R101: scans, neighbours and shuffles over the active lanes. R103: a member-masked shuffle whose mask no other split shares
executes at once, over the mask's lanes that are active. -/
def Obligations.CrossLaneWords : Prop :=
  ((∀ d a r la m, ∀ w ∈ scanWords d a r la m, w.Complete) ∧ ∀ d a r la, ∀ w ∈ shuffleWords d a r la false, w.Complete) ∧
  (∀ d a r la, ∀ w ∈ shuffleWords d a r la true, w.CompleteAlone)

/-- R99, R102: the words that write an s register from lanes, or lanes from one. They wait for writes to S(r) and for
lane instructions in the pipes that have read it (R82). -/
def Obligations.LaneAndGroupWords : Prop :=
  ∀ (s : State) (c : Issuer) (d a r : BitVec 6) (la : Bool) (m : BitVec 3), Issues s c → c.grp.sBusy r.toNat = false → c.grp.sHeld r.toNat = false →
    let freed (V : SMap VReg) : Prop := ∀ n, SMap.find? V n = if (last1 a la).contains n then none else SMap.find? c.grp.v n
    let G (ns : List Nat) : Group := c.grp.keepNames ns
    let there : Prop := c.grp.sbad.contains r.toNat = false
    -- REDUCE: S(r) takes the running value after the last lane
    (LaneReady s c [a.toNat] [] → scanLegal m c.fmt = true → there →
      ∃ V : SMap VReg, Completes (.reduce a r la m) s c
        { (G (last1 a la)).setS r.toNat (fold (scanOp c.fmt m.toNat) (c.grp.sreg r.toNat) (fun k => c.lane a.toNat k) c.active.lanes) with v := V } ∧
        freed V) ∧
    -- VOTE: the active lanes in which the predicate holds
    (∀ p : BitVec 3, LaneReady s c [] [] → Completes (.vote p r) s c ((G []).setS r.toNat (c.active &&& c.grp.pred p.toNat))) ∧
    -- MATCH: v[d] takes the mask of equal lanes, S(r) the lowest lane of each value
    (LaneReady s c [a.toNat] [d.toNat] →
      let same (k : Nat) : Mask := Mask.ofLanes (c.active.lanes.filter fun j => c.lane a.toNat j == c.lane a.toNat k)
      ∃ V : SMap VReg, Completes (.matchEq d a r la) s c
        { (G (last1 a la)).setS r.toNat (Mask.ofLanes (c.active.lanes.filter fun k => (same k).lanes.head? == some k)) with v := V } ∧
        (∀ k < 32, c.active.has k = true → laneIn V d.toNat k = same k) ∧
        ∀ n, n ≠ d.toNat → SMap.find? V n = if (last1 a la).contains n then none else SMap.find? c.grp.v n) ∧
    -- GETS: every active lane takes S(r)
    (LaneReady s c [] [d.toNat] → there →
      ∃ V : SMap VReg, Completes (.gets d r) s c { G [] with v := V } ∧
        (∀ k < 32, laneIn V d.toNat k = if c.active.has k then c.grp.sreg r.toNat else c.lane d.toNat k) ∧
        ∀ n, n ≠ d.toNat → SMap.find? V n = SMap.find? c.grp.v n) ∧
    -- PUTS: S(r) takes the lowest active lane
    (LaneReady s c [a.toNat] [] →
      ∃ V : SMap VReg, Completes (.puts a r la) s c
        { (G (last1 a la)).setS r.toNat (c.lane a.toNat ((c.active.lanes.head?).getD 0)) with v := V } ∧ freed V)

/-! ## Memory words -/

/-- R132 to R138, R145, R146, R148: a global memory word whose lanes are aligned and in an ordinary window leaves the pipe with one access
for each active lane. R142, R146: a pad word whose lanes are in range and aligned, likewise. -/
def Obligations.MemoryWords : Prop :=
  ((∀ t a r la imm sc, ∀ w ∈ globalLoads t a r la imm sc, w.Complete) ∧ (∀ t a r la imm sc, ∀ w ∈ globalStores t a r la imm sc, w.Complete) ∧
    ∀ t a r la code, ∀ w ∈ globalAtomics t a r la code, w.Complete) ∧
  (∀ t a r la imm code, ∀ w ∈ padWords t a r la imm code, w.Complete)

/-- R134, R135, R148: the first lane of a flat load whose address is misaligned raises ALIGN: FLT is that lane, the accesses of the lanes below
it have gone out, no other lane's has, and memory stays. R14, R149: a prefetch has no effect but that of its last-read bit, and none at all with
no active lane. -/
def Obligations.MisalignedLanesAndPrefetch : Prop :=
  ∀ (s : State) (c : Issuer) (t a : BitVec 6) (r : BitVec 4) (la : Bool) (imm : BitVec 5), Issues s c → c.behindAcquire = false →
    let ea (k : Nat) : Dword := pair (c.lane (a.toNat + 1) k) (c.lane a.toNat k) + BitVec.ofNat 64 (imm.toNat * 4)
    (∀ k < 32, Handled s c → MemReady s c [a.toNat, a.toNat + 1] none [t.toNat] → c.active.has k = true → (ea k).toNat % 4 ≠ 0 →
      (∀ j ≤ k, c.active.has j = true → windowOf (ea j).toNat < 2 ∧ (j < k → (ea j).toNat % 4 = 0)) →
      ∃ (u : State) (G : Group) (o : LOp), exec (.ldf32 t a la imm) s = .next u ∧ Taken u c .align (Mask.one k) c.pc ∧ SameMemory s u ∧
        u.group? c.tid c.gid = some G ∧ o ∈ G.ops ∧ o.id = c.grp.nextOp ∧
        o.accs = accesses c.grp.nextOp ((c.active.lanes.filter (· < k)).map fun j => LaneAcc.new j 4 (ea j) none [] 0)) ∧
    (c.active ≠ 0 → ∃ V : SMap VReg, Completes (.prefg a r la imm) s c { c.grp.keepNames (last1 a la) with v := V } ∧
      ∀ n, SMap.find? V n = if (last1 a la).contains n then none else SMap.find? c.grp.v n) ∧
    (c.active = 0 → Completes (.prefg a r la imm) s c c.grp)

/-! ## Group words -/

/-- R107, R108, R110, R111: uniform arithmetic; R108 for pairs; R109: the divider takes a quotient that is written later, once no lane
instruction is still to write its register (R82). -/
def Obligations.UniformWords : Prop :=
  (∀ d a b k cc, ∀ w ∈ uniformWords d a b k cc, w.Complete) ∧ (∀ d a imm n l, ∀ w ∈ uniformImms d a imm n l, w.Complete) ∧
    ∀ (s : State) (c : Issuer) (d a b : BitVec 6), Issues s c →
      (WordReady c [a.toNat, a.toNat + 1, b.toNat, b.toNat + 1] [d.toNat, d.toNat + 1] →
        ∃ (S : SMap Word) (B : List Nat), Completes (.sadd64 d a b) s c { c.grp with s := S, sbad := B } ∧
          pair (SMap.getD S (d.toNat + 1) 0) (SMap.getD S d.toNat 0) =
            pair (c.grp.sreg (a.toNat + 1)) (c.grp.sreg a.toNat) + pair (c.grp.sreg (b.toNat + 1)) (c.grp.sreg b.toNat) ∧
          ∀ n, n ≠ d.toNat → n ≠ d.toNat + 1 → SMap.getD S n 0 = c.grp.sreg n ∧ (n ∈ B ↔ n ∈ c.grp.sbad)) ∧
      (WordReady c [a.toNat, b.toNat] [] → c.grp.sComing d.toNat = false →
        ∃ o : LOp, Completes (.sdivn d a b) s c { c.grp with ops := c.grp.ops ++ [o], nextOp := c.grp.nextOp + 1 } ∧
          o.id = c.grp.nextOp ∧ o.sdests = [d.toNat] ∧ o.dests = [] ∧ o.pc = c.pc ∧
          o.kind = .sdiv d.toNat (if c.grp.sreg b.toNat = 0 then 0xFFFFFFFF#32
            else BitVec.ofNat 32 ((c.grp.sreg a.toNat).toNat / (c.grp.sreg b.toNat).toNat)))

/-- R243: a poisoned source register of uniform arithmetic raises ECC, and nothing is written. -/
def Obligations.PoisonedGroupWords : Prop :=
  (∀ d a b k cc, ∀ w ∈ uniformWords d a b k cc, w.Poisoned) ∧ ∀ d a imm n l, ∀ w ∈ uniformImms d a imm n l, w.Poisoned

/-- R111 to R113: branches, calls with their link, and BRX, which raises ALIGN where its target is misaligned. -/
def Obligations.Transfers : Prop :=
  (∀ a o l t p, ∀ w ∈ jumps a o l t p, w.Complete) ∧
    ∀ (s : State) (c : Issuer) (a : BitVec 6) (o : BitVec 17) (l : Word), Issues s c →
      (WordReady c [] [a.toNat, a.toNat + 1] →
        exec (.call a o) s =
          .next (s.becomes c (c.advanced s (c.pc + 4 + 4 * o.signExtend 64) (c.grp.setPair a.toNat (c.pc + 4)))) ∧
        exec (.callL a l) s =
          .next (s.becomes c (c.advanced s (c.pc + 8 + 4 * l.signExtend 64) (c.grp.setPair a.toNat (c.pc + 8))))) ∧
      (WordReady c [a.toNat, a.toNat + 1] [] →
        let goal : Dword := pair (c.grp.sreg (a.toNat + 1)) (c.grp.sreg a.toNat)
        (goal.toNat % 4 = 0 → exec (.brx a) s = .next (s.becomes c (c.advanced s goal c.grp))) ∧
        (goal.toNat % 4 ≠ 0 → Handled s c →
          ∃ t : State, exec (.brx a) s = .next t ∧ Taken t c .align c.spl.act c.pc ∧ SameMemory s t))

/-- R28, R114, R115: BDIV and BIDX divide their split, the taken lanes or the lowest index first into the lowest-numbered FREE entry, or go on
undivided where all lanes go one way; an index beyond the table raises JTAB in its lanes. -/
def Obligations.Divergence : Prop :=
  ∀ (s : State) (c : Issuer), Issues s c →
    (∀ (p : BitVec 3) (o : BitVec 17),
      let goal : Dword := c.pc + 4 + 4 * o.signExtend 64
      let taken := c.spl.act &&& c.grp.pred p.toNat
      (taken = c.spl.act → exec (.bdiv p o) s = .next (s.becomes c (c.advanced s goal c.grp))) ∧
      (taken = 0 → c.spl.act ≠ 0 → exec (.bdiv p o) s = .next (s.becomes c (c.advanced s c.next c.grp))) ∧
      (taken ≠ 0 → taken ≠ c.spl.act → c.mayDivide 2 → Divides (.bdiv p o) s c [(goal, taken), (c.next, c.spl.act &&& ~~~taken)])) ∧
    ∀ (a : BitVec 6) (o : BitVec 17) (n : Word),
      let T : Dword := c.pc + 4 + 4 * o.signExtend 64
      let ix (k : Nat) : Word := c.lane a.toNat k
      c.badLanes [a.toNat] &&& c.spl.act = 0 → c.reads s T .fetch n →
      ((∀ k < 32, c.spl.act.has k = true → (ix k).toNat < n.toNat) → ∀ (xs : List Word) (w : Word → Word),
        (xs.map BitVec.toNat).Pairwise (· < ·) → (∀ x, x ∈ xs ↔ ∃ k < 32, c.spl.act.has k = true ∧ ix k = x) →
        (∀ x ∈ xs, c.reads s (T + 4 + 4 * x.setWidth 64) .fetch (w x)) →
        (∀ x, xs = [x] → exec (.bidx a o) s = .next (s.becomes c (c.advanced s (T + 4 * (w x).signExtend 64) c.grp))) ∧
        (2 ≤ xs.length → c.mayDivide xs.length → Divides (.bidx a o) s c
          (xs.map fun x => (T + 4 * (w x).signExtend 64, Mask.ofLanes (c.spl.act.lanes.filter fun k => ix k == x))))) ∧
      (Handled s c → ∀ bad : Mask, bad ≠ 0 → (∀ k < 32, bad.has k = (c.spl.act.has k && decide (n.toNat ≤ (ix k).toNat))) →
        ∃ t : State, exec (.bidx a o) s = .next t ∧ Taken t c .jtab bad c.pc ∧ SameMemory s t)

/-- R30, R31, R116, R117: JSET names the join point; JOIN and JOINT away from it do nothing; at it they arrive, the first JOINT with a timer for
the parent where JTO is not 0; the last child that arrives merges the children into their parent, which goes on behind the join. A split
that waits at a member-masked form for lanes which arrive here will raise MEMBER (R104). That a marker of the last child parks the merged split is
the model's choice (log entry 63). -/
def Obligations.Joins : Prop :=
  ∀ (s : State) (c : Issuer), Issues s c →
    (∀ o : BitVec 17, Completes (.jset o) s c
      (c.grp.modSplit c.sid fun e => { e with jpc := (c.pc + 4 + 4 * o.signExtend 64).extractLsb' 2 55 })) ∧
    (c.spl.parent = c.sid → Completes .join s c c.grp ∧ Completes .joint s c c.grp) ∧
    ∀ P : Split, c.spl.parent ≠ c.sid → c.grp.splits.find? c.spl.parent = some P → P.st = .parent →
      (c.pc ≠ (0#7 ++ P.jpc ++ 0#2 : BitVec 64) → Completes .join s c c.grp ∧ Completes .joint s c c.grp) ∧
      (c.pc = (0#7 ++ P.jpc ++ 0#2 : BitVec 64) → P.jpc ≠ 0 → c.spl.act ≠ 0 → c.spl.mask ≠ 0 →
        (Undisturbed c.grp [c.sid] none →
          let G := ((c.advanced s c.next c.grp).arriveElsewhere c.sid c.spl.mask 0 0).modSplit c.sid fun e => { e with st := .arrived, wait := .none }
          exec .join s = .next (s.becomes c G) ∧
          exec .joint s = .next (s.becomes c (G.modSplit c.spl.parent fun e => if e.joint then e else
            { e with joint := true, timer := if c.grp.jto = 0 then none else some (s.now + 5 * c.grp.jto.toNat) }))) ∧
        (∀ kids : List (Nat × Split), kids = c.grp.splits.filter (fun x => x.1 != c.spl.parent && x.2.parent == c.spl.parent) →
          (∀ x ∈ kids, x.1 ≠ c.sid → x.2.st = .arrived) → (∀ x ∈ kids, x.1 ≠ P.parent) →
          Undisturbed c.grp (kids.map Prod.fst) (some c.spl.parent) → c.team.st = .running →
          ∃ G : Group, exec .join s = .next (s.becomes c { c.advanced s c.next c.grp with splits := G.splits }) ∧
            (∀ x ∈ kids, G.splits.find? x.1 = none) ∧
            (∃ e, G.splits.find? c.spl.parent = some e ∧ e.mask = kids.foldl (fun m x => m ||| x.2.mask) 0#32 ∧ e.act = e.mask ∧
              e.pc = c.pc + 4 ∧ e.fmt = P.fmt ∧ e.parent = P.parent ∧ e.timer = none ∧ e.joint = false ∧
              (c.m = false → (∀ x ∈ kids, x.1 ≠ c.sid → x.2.mark = none) → e.st = .ready ∧ e.mark = none) ∧
              (c.m = true → (∀ x ∈ kids, x.1 ≠ c.sid → ∀ n, x.2.mark = some n → n ≤ c.grp.nextOp) →
                e.st = .blocked ∧ e.mark = some c.grp.nextOp) ∧
              (P.parent = c.spl.parent → e.jpc = 0) ∧ ∀ Q, P.parent ≠ c.spl.parent → c.grp.splits.find? P.parent = some Q → e.jpc = Q.jpc) ∧
            ∀ n, n ≠ c.spl.parent → (∀ x ∈ kids, n ≠ x.1) →
              G.splits.find? n = SMap.find? (c.grp.arriveElsewhere c.sid c.spl.mask 0 0).splits n))

/-- R34, R69, R118: EXIT ends the lanes of its split. Lanes that others outlive leave the group; with the last lanes, and nothing
outstanding, the group retires and its hearth registers are released; with something outstanding EXIT waits. -/
def Obligations.Exits : Prop :=
  ∀ (s : State) (c : Issuer), Issues s c → c.grp.saved = none →
    (c.spl.mask = c.spl.act → c.grp.alive &&& ~~~c.spl.act ≠ 0 → Undisturbed c.grp [c.sid] none →
      exec .exit s = .next (s.becomes c (Group.forget { c.advanced s c.next c.grp with
        alive := c.grp.alive &&& ~~~c.spl.act, splits := SMap.erase c.grp.splits c.sid } c.spl.all))) ∧
    (c.grp.splits = [(c.sid, c.spl)] → c.spl.parent = c.sid → c.spl.mask = c.grp.alive → c.spl.act = c.grp.alive →
      c.grp.ops.any c.grp.outstanding = false → c.grp.held = [] →
      ∃ (t : State) (T : Team) (G : Group), exec .exit s = .next t ∧ t.teams.find? c.tid = some T ∧ T.groups.find? c.gid = some G ∧
        G.retired = true ∧ G.alive = 0 ∧ G.v = [] ∧ G.splits = [] ∧ G.s = c.grp.s ∧ G.p = c.grp.p ∧ t.mem = s.mem ∧
        (∀ h x, c.team.hearth.find? h = some x → T.hearth.find? h = some { x with owner := if x.owner = some c.gid then none else x.owner }) ∧
        ∀ g, g ≠ c.gid → T.groups.find? g = c.team.groups.find? g) ∧
    (c.grp.alive &&& ~~~(if c.spl.parent = c.sid then c.spl.mask else c.spl.act) = 0 →
        c.grp.ops.any c.grp.outstanding = true ∨ c.grp.held ≠ [] →
      exec .exit s = .next (s.modSplit c.tid c.gid c.sid fun e => { e with wait := .exitMarker c.grp.nextOp, st := .blocked }))

/-- R119, R276, R283: TRAP and BKPT have completed when they raise: FPC is their address, the frozen split stands behind them, and TRAP's
code is FCAUSE's detail. R120 to R125: barriers, fences, monitors, YIELD and SLEEP: what each records, and what its split waits for. -/
def Obligations.TrapsBarriersWaits : Prop :=
  (∀ (s : State) (c : Issuer), Issues s c → Handled s c →
    let behind (t : State) : Prop := ∃ e, t.split? c.tid c.gid c.sid = some e ∧ e.pc = c.next ∧ e.st = .frozen
    (∀ n : BitVec 8, ∃ t : State, exec (.trap n) s = .next t ∧ TakenAt t c.tid c.gid .trap n.toNat c.spl.act c.pc ∧ behind t ∧
      SameMemory s t) ∧
    ∃ t : State, exec .bkpt s = .next t ∧ Taken t c .bkpt c.spl.act c.pc ∧ behind t ∧ SameMemory s t) ∧
  (∀ (s : State) (c : Issuer), Issues s c →
    (∀ (b : BitVec 6) (clu : Bool) (n : BitVec 4),
      let G : Group := { c.grp with arrive := c.grp.arrive ++ [⟨clu, n.toNat, b.toNat, c.grp.nextOp, s.issues⟩] }
      let mine := c.grp.arrive.filter fun a => a.clu == clu && a.n == n.toNat
      Waits (.bar b clu n) s c (.arrival s.issues) G ∧ Completes (.bara b clu n) s c G ∧
        (∀ a, mine.getLast? = some a → Waits (.barw clu n) s c (.arrival a.tok) c.grp) ∧
        (mine = [] → Waits (.barw clu n) s c
          (.barrier clu n.toNat (SMap.getD c.grp.phases (n.toNat + if clu then 16 else 0) 0)) c.grp)) ∧
    (∀ (k : BitVec 2) (z : BitVec 3),
      Waits (.fence k z) s c (.fence (k != 1) (k != 0) (if k = 3 then max 1 z.toNat else z.toNat) c.grp.nextOp) c.grp) ∧
    (∀ (a b : BitVec 6) (imm : BitVec 9) (w : Word), WordReady c [a.toNat, a.toNat + 1, b.toNat] [] →
      let m : Dword := pair (c.grp.sreg (a.toNat + 1)) (c.grp.sreg a.toNat)
      (m.toNat % 4 = 0 → c.reads s m .read w →
        (w ≠ c.grp.sreg b.toNat → Completes (.waitm a b imm) s c c.grp) ∧
        (w = c.grp.sreg b.toNat → Waits (.waitm a b imm) s c
          (.monitor m.toNat w (if imm = 0 then none else some (s.now + 5 * 1024 * imm.toNat)) s.now) c.grp)) ∧
      (windowOf m.toNat ≠ 4 → m.toNat % 4 ≠ 0 → Handled s c →
        ∃ t : State, exec (.waitm a b imm) s = .next t ∧ Taken t c .align c.spl.act c.pc ∧ SameMemory s t)) ∧
    Waits .yield s c (.yield (s.readyOthers c.team.core c.tid c.gid) (s.issues + 1) (s.now + 5 * 64)) c.grp ∧
    Completes (.sleep 0) s c c.grp ∧
    ∀ imm : BitVec 9, imm ≠ 0 → Waits (.sleep imm) s c (.sleep (s.now + 5 * 1024 * imm.toNat)) c.grp)

/-! ## Special registers, hearth registers, the handler -/

/-- R25, R126, R220, R282: GETSR of every number; a privileged number outside a handler is PRIV, an unassigned one ILLEGAL.
What CLK reads is the model's time (log entry 1). -/
def Obligations.SpecialRegisterReads : Prop :=
  ∀ (s : State) (c : Issuer) (a : BitVec 6) (n : BitVec 9), Issues s c → c.grp.sBusy a.toNat = false →
    (∀ L, s.launches.find? c.team.launch = some L → ∀ x ∈ userNumbers c L, n.toNat = x.1 →
      Completes (.getsr a n) s c (c.grp.setS a.toNat x.2)) ∧
    -- CLK: the core's cycle counter, its high word latched
    (n.toNat = 0x012 → let clk : Dword := BitVec.ofNat 64 (s.now / 5)
      Completes (.getsr a n) s c ({ c.grp with clkh := (clk >>> 32).setWidth 32 }.setS a.toNat (clk.setWidth 32))) ∧
    (∀ x H, c.grp.saved = some x → c.team.groups.find? (c.grp.hgsel.toNat % 32) = some H → H.retired = false →
      ∀ y ∈ handlerNumbers c x H, n.toNat = y.1 →
        (n.toNat = 0x101 → (c.grp.ops.any fun o => !o.handler && o.dests.contains (c.grp.tvsel.toNat % 64)) = false ∧
          (SMap.getD x.v (c.grp.tvsel.toNat % 64) VReg.zero).bad.getLsbD (c.grp.tvsel.toNat / 256 % 32) = false) →
        Completes (.getsr a n) s c (c.grp.setS a.toNat y.2)) ∧
    (Handled s c → 0x100 ≤ n.toNat →
      ∃ t : State, exec (.getsr a n) s = .next t ∧ Taken t c .priv c.spl.act c.pc ∧ SameMemory s t) ∧
    (Handled s c → (0x014 ≤ n.toNat ∧ n.toNat < 0x020 ∨ 0x023 ≤ n.toNat ∧ n.toNat < 0x100) →
      ∃ t : State, exec (.getsr a n) s = .next t ∧ Taken t c .illegal c.spl.act c.pc ∧ SameMemory s t)

/-- R25, R26, R126, R127: what SETSR and FMTW write; a read-only or unassigned number is ILLEGAL, and so is a value with a
reserved bit in FMT or SCV; a privileged number outside a handler is PRIV. -/
def Obligations.SpecialRegisterWrites : Prop :=
  ∀ (s : State) (c : Issuer) (a : BitVec 6) (n : BitVec 9), Issues s c → c.grp.sComing a.toNat = false →
    let w := c.grp.sreg a.toNat
    (c.grp.sbad.contains a.toNat = false →
    -- EXM: lanes are only taken away
    (n.toNat = 0x000 → c.spl.act &&& w ≠ 0 → c.spl.mask ≠ 0 → Undisturbed c.grp [c.sid] none →
      exec (.setsr a n) s = .next (s.becomes c ((c.advanced s c.next c.grp).modSplit c.sid fun e => { e with act := c.spl.act &&& w }))) ∧
    (w.toNat < 2 ^ 16 → let G := c.grp.modSplit c.sid fun e => { e with fmt := w.setWidth 16 }
      (n.toNat = 0x001 → Completes (.setsr a n) s c G) ∧ Completes (.fmtw a) s c G) ∧
    (∀ r : BitVec 3, Completes (.fmtwRm r) s c
      (c.grp.modSplit c.sid fun e => { e with fmt := BitVec.ofNat 16 (e.fmt.toNat / 8 * 8 + r.toNat) })) ∧
    (n.toNat = 0x008 → Completes (.setsr a n) s c { c.grp with brd := w }) ∧
    (n.toNat = 0x009 → w &&& 0xFFFFC0C0#32 = 0 → Completes (.setsr a n) s c { c.grp with scv := w }) ∧
    (n.toNat = 0x00A → Completes (.setsr a n) s c { c.grp with jto := w })) ∧
    -- a bad number or value, or a privileged number: whether the value is poisoned or not (R65)
    (Handled s c → (n.toNat < 0x100 ∧ n.toNat ∉ [0x000, 0x001, 0x008, 0x009, 0x00A] ∨ n.toNat = 0x001 ∧ 2 ^ 16 ≤ w.toNat ∨
        n.toNat = 0x009 ∧ w &&& 0xFFFFC0C0#32 ≠ 0) →
      ∃ t : State, exec (.setsr a n) s = .next t ∧ Taken t c .illegal c.spl.act c.pc ∧ SameMemory s t) ∧
    (Handled s c → 2 ^ 16 ≤ w.toNat → ∃ t : State, exec (.fmtw a) s = .next t ∧ Taken t c .illegal c.spl.act c.pc ∧ SameMemory s t) ∧
    (Handled s c → 0x100 ≤ n.toNat →
      ∃ t : State, exec (.setsr a n) s = .next t ∧ Taken t c .priv c.spl.act c.pc ∧ SameMemory s t)

/-- R220, R282: what a handler's SETSR writes: the lane that TVSEL names in the interrupted program's map, the selectors, and the PC at
which the handled split goes on: the instruction that stopped at the fault, those it issued after it and its faults not yet delivered are
dropped. -/
def Obligations.HandlerRegisterWrites : Prop :=
  ∀ (s : State) (c : Issuer) (a : BitVec 6) (x : Saved), Issues s c →
    c.grp.sComing a.toNat = false → c.grp.sbad.contains a.toNat = false → c.grp.saved = some x →
    let w := c.grp.sreg a.toNat
    let kept (y : Saved) : Group := { c.grp with saved := some y }
    (w &&& 0xFFFFE0C0#32 = 0 → Completes (.setsr a 0x100) s c { c.grp with tvsel := w }) ∧
    (w &&& 0xFFFFFFE0#32 = 0 → Completes (.setsr a 0x102) s c { c.grp with hgsel := w }) ∧
    Completes (.setsr a 0x107) s c (kept { x with rpch := w }) ∧
    (∀ r, (c.grp.ops.any fun o => !o.handler && o.dests.contains (c.grp.tvsel.toNat % 64)) = false →
      SMap.find? x.v (c.grp.tvsel.toNat % 64) = some r →
      ∃ V : SMap VReg, Completes (.setsr a 0x101) s c (kept { x with v := V }) ∧
        (∀ k < 32, laneIn V (c.grp.tvsel.toNat % 64) k = if k = c.grp.tvsel.toNat / 256 % 32 then w else r.lane k) ∧
        ∀ m, m ≠ c.grp.tvsel.toNat % 64 → SMap.find? V m = SMap.find? x.v m) ∧
    (w.toNat % 4 = 0 → (∀ o ∈ c.grp.ops, o.due c.grp.padFault = false) →
      ∃ y : Saved, Completes (.setsr a 0x106) s c { c.grp with
          saved := some y, fr := { c.grp.fr with pix := 0 },
          ops := c.grp.ops.map fun o => if o.id < x.firstOp then { o with faults := [] } else o } ∧
        (∀ e, SMap.find? x.splits x.handled = some e → ∃ f, SMap.find? y.splits x.handled = some f ∧ f.pc = pair x.rpch w ∧
          f.walks = e.walks.takeWhile (fun p => p.pc != c.grp.fr.fpc) ∧
          f.wait = .none ∧ f.mark = none ∧ f.mask = e.mask ∧ f.act = e.act ∧ f.fmt = e.fmt) ∧
        (∀ n, n ≠ x.handled → SMap.find? y.splits n = SMap.find? x.splits n) ∧ y.v = x.v ∧ y.p = x.p ∧ y.held = [])

/-- R24, R128: hearth registers: claiming (of two groups that claim in one cycle the lower index becomes the owner), waiting for the owner, releasing, writing by the owner only (HOWN), reading by anyone. R129,
R131, R290: SNAP latches armed banks, and does nothing else; SYSCALL writes its record to the next slot of the service ring and waits for
the driver, or raises PRIV without a ring. -/
def Obligations.HearthAndServices : Prop :=
  (∀ (s : State) (c : Issuer) (a : BitVec 6) (h : BitVec 4), Issues s c →
    let x : Hearth := SMap.getD c.team.hearth h.toNat ⟨0, none, (0, 0)⟩
    let after (s' : State) (y : Hearth) : State :=
      { s' with teams := s'.teams.modify c.tid fun T => { T with hearth := SMap.insert T.hearth h.toNat y } }.becomes c
        (c.advanced s c.next c.grp)
    let writes (i : Instr) (y : Hearth) : Prop := exec i s = .next (after s y)
    let mine : Hearth := { x with owner := some c.gid, claim := (s.issueCycle c, c.sid) }
    (x.owner = none → writes (.hclaim h) mine) ∧
    (x.owner = some c.gid → Completes (.hclaim h) s c c.grp ∧ writes (.hrel h) { x with owner := none }) ∧
    (∀ g, x.owner = some g → g ≠ c.gid →
      (¬ (c.gid < g ∧ x.claim.1 = s.issueCycle c) →
        exec (.hclaim h) s = .next (s.modSplit c.tid c.gid c.sid fun e => { e with wait := .hclaim h.toNat, st := .blocked })) ∧
      (c.gid < g ∧ x.claim.1 = s.issueCycle c → exec (.hclaim h) s = .next (after
        (s.modSplit c.tid g x.claim.2 fun e => { e with wait := .hclaim h.toNat, st := if e.st = .ready then .blocked else e.st }) mine))) ∧
    (x.owner = some c.gid → WordReady c [a.toNat] [] → writes (.hwr a h) { x with val := c.grp.sreg a.toNat }) ∧
    (WordReady c [] [a.toNat] → Completes (.hrd a h) s c (c.grp.setS a.toNat x.val)) ∧
    (x.owner ≠ some c.gid → Handled s c →
      (∃ t : State, exec (.hrel h) s = .next t ∧ Taken t c .hown c.spl.act c.pc ∧ SameMemory s t) ∧
      (WordReady c [a.toNat] [] → ∃ t : State, exec (.hwr a h) s = .next t ∧ Taken t c .hown c.spl.act c.pc ∧ SameMemory s t))) ∧
  (∀ (s : State) (c : Issuer) (x : Ctx), Issues s c → s.ctxs.find? c.team.space = some x →
    (x.armed = false → Completes .snap s c c.grp) ∧
    (x.armed = true → ∃ u : State, exec .snap s = .next (u.becomes c (c.advanced s c.next c.grp)) ∧ u.pkg.snapTime = s.now / 18 ∧
      (∃ l ∈ u.pkg.snaps, l.core = c.team.core ∧ l.clk = s.now / 5) ∧ (∀ y ∈ u.ctxs, y.2.armed = false) ∧ u.teams = s.teams ∧ u.mem = s.mem) ∧
    (∀ code : BitVec 9, x.ring = 0 → Handled s c →
      ∃ t : State, exec (.syscall code) s = .next t ∧ Taken t c .priv c.spl.act c.pc ∧ SameMemory s t) ∧
    (∀ (code : BitVec 9) (L : Launch) (k : Nat), WordReady c (List.range 8) [0, 1] → x.ring ≠ 0 → 0 < x.entries →
      s.launches.find? c.team.launch = some L → c.grp.ops = [] → c.grp.wbuf = [] → s.flushed c.tid c.gid = true →
      let slot := x.ring.toNat + 64 * (x.ringNext % x.entries)
      s.translate c.team.space slot .write true = .hit k → s.nat k 4 < 2 ^ 31 →
      let tix := c.team.tx + 2 ^ 4 * c.team.ty + 2 ^ 16 * L.width + 2 ^ 20 * L.height
      let bs := natBytes 4 (code.toNat + 2 ^ 16 * c.gid + 2 ^ 31) ++ wordBytes (BitVec.ofNat 32 tix) ++ natBytes 8 c.team.cix ++
        (List.range 8).flatMap (fun i => wordBytes (c.grp.sreg i)) ++ natBytes 16 0
      exec (.syscall code) s = .next (State.becomes
        { s.store k bs with ctxs := s.ctxs.modify c.team.space fun x => { x with ringNext := x.ringNext + 1 } } c
        ((c.advanced s c.next c.grp).modSplit c.sid fun e => { e with wait := .syscall slot, st := .blocked }))))

/-- R130, R283: RESUME ends the handler: what its entry set aside comes back, the frozen splits of every group return to their state (the
accesses that the stopped instructions still send follow the handler's, in the order of their issue, and what the handler has outstanding loses
its registers alone, R251), the team runs; outside a handler it is ILLEGAL. -/
def Obligations.ReturnFromHandler : Prop :=
  ∀ (s : State) (c : Issuer), Issues s c →
    (∀ x, c.grp.saved = some x →
      (∀ g ∈ c.team.groups, g.2.held = [] ∧ g.2.pending = [] ∧ ∀ y, g.2.saved = some y → y.held = []) → x.held = [] →
      ∃ (t : State) (T : Team) (G : Group), exec .resume s = .next t ∧ t.teams.find? c.tid = some T ∧ T.groups.find? c.gid = some G ∧
        T.st = .running ∧ T.handling = none ∧ (t.core T.core).handler ≠ some c.tid ∧
        G.saved = none ∧ G.ops = c.grp.ops.map LOp.orphan ∧ G.wbuf = c.grp.wbuf.map Buffered.orphan ∧ G.v = x.v ∧ G.p = x.p ∧ G.s = c.grp.s ∧ G.q = c.grp.q ∧ G.t = c.grp.t ∧ G.fr = c.grp.fr ∧
        (∀ n e, x.splits.find? n = some e →
          let f := e.mapWalks fun p => { p with ord := p.op.map fun id => c.grp.nextOp + ((stoppedOps x.splits).idxOf? id).getD 0 }
          G.splits.find? n = some (if e.st = .frozen then { f with st := f.back } else f)) ∧
        (∀ g H, g ≠ c.gid → c.team.groups.find? g = some H → H.saved = none →
          T.groups.find? g = some { H.thaw with sibling := false }) ∧ SameMemory s t) ∧
    (Handled s c → ∃ t : State, exec .resume s = .next t ∧ Taken t c .illegal c.spl.act c.pc ∧ SameMemory s t)

/-! ## Tiles, engines, futures, steps -/

/-- R162, R163: TALLOC takes the lowest free slot of the core and its handle, waits while the quota is held or no slot is free, and raises
QUOTA without a quota; TFREE gives the slot up under a new generation; a dead handle is STALE. R164: TGIVE moves a live handle into the
empty latch that group g keeps for the giver, TTAKE takes it out; each waits for the other. -/
def Obligations.TileSlots : Prop :=
  (∀ (s : State) (c : Issuer) (d : BitVec 5) (k : BitVec 3), Issues s c →
    let slots (u : State) : SMap TileSlot := (u.core c.team.core).tiles
    let free (n : Nat) : Prop := ∀ x, SMap.find? (slots s) n = some x → x.alloc = false ∧ x.busy = false
    let count := 4 * ((s.core c.team.core).partition.toNat / 2 ^ 12 % 64)
    (c.team.slots.length < c.team.quota → ∀ n, n < count → free n → (∀ m < n, ¬ free m) →
      let gen := match SMap.find? (slots s) n with | some x => x.gen | none => 0
      ∃ u : State, exec (.talloc d k) s =
          .next (u.becomes c (c.advanced s c.next (c.grp.setT d.toNat (BitVec.ofNat 16 (gen * 256 + n))))) ∧
        SMap.find? (slots u) n = some ⟨true, false, c.tid, k.toNat, gen, 0, 0, 0, false, [], []⟩ ∧
        (∀ m, m ≠ n → SMap.find? (slots u) m = SMap.find? (slots s) m) ∧ u.mem = s.mem ∧
        u.teams = s.teams.modify c.tid fun T => { T with slots := setInsert T.slots n }) ∧
    (c.team.quota ≠ 0 → (c.team.quota ≤ c.team.slots.length ∨ ∀ n < count, ¬ free n) →
      exec (.talloc d k) s = .next { s.modSplit c.tid c.gid c.sid fun e => { e with wait := .talloc s.nextOrd, st := .blocked } with
        nextOrd := s.nextOrd + 1 }) ∧
    (c.team.quota = 0 → Handled s c →
      ∃ t : State, exec (.talloc d k) s = .next t ∧ Taken t c .quota c.spl.act c.pc ∧ SameMemory s t) ∧
    (∀ n x, s.tile? c d.toNat = some (n, x) →
      ∃ u : State, exec (.tfree d) s = .next (u.becomes c (c.advanced s c.next (c.grp.setT d.toNat 0xFFFF))) ∧
        SMap.find? (slots u) n = some { x with alloc := false, busy := true, gen := (x.gen + 1) % 256 } ∧
        (∀ m, m ≠ n → SMap.find? (slots u) m = SMap.find? (slots s) m) ∧ u.mem = s.mem ∧
        u.teams = s.teams.modify c.tid fun T => { T with slots := T.slots.filter fun m => m != n }) ∧
    (s.tile? c d.toNat = none → Handled s c →
      ∃ t : State, exec (.tfree d) s = .next t ∧ Taken t c .stale c.spl.act c.pc ∧ SameMemory s t)) ∧
  (∀ (s : State) (c : Issuer) (a g : BitVec 5) (G : Group), Issues s c → c.team.groups.find? g.toNat = some G →
    let h := c.grp.treg a.toNat
    let wait (i : Instr) (w : Wait) : Prop := exec i s = .next (s.modSplit c.tid c.gid c.sid fun e => { e with wait := w, st := .blocked })
    (s.tile? c a.toNat ≠ none →
      (SMap.find? G.latches c.gid = none →
        let put (X : Group) : Group := { X with latches := SMap.insert X.latches c.gid h }
        exec (.tgive a g) s = .next ((s.modGroup c.tid g.toNat put).becomes c
          (c.advanced s c.next ((if g.toNat = c.gid then put c.grp else c.grp).setT a.toNat 0xFFFF)))) ∧
      (SMap.find? G.latches c.gid ≠ none → wait (.tgive a g) (.latchFull g.toNat c.gid))) ∧
    (s.tile? c a.toNat = none → Handled s c →
      ∃ t : State, exec (.tgive a g) s = .next t ∧ Taken t c .stale c.spl.act c.pc ∧ SameMemory s t) ∧
    (∀ x, SMap.find? c.grp.latches g.toNat = some x →
      Completes (.ttake a g) s c ({ c.grp with latches := SMap.erase c.grp.latches g.toNat }.setT a.toNat x)) ∧
    (SMap.find? c.grp.latches g.toNat = none →
      (G.retired = false → wait (.ttake a g) (.latchEmpty c.gid g.toNat)) ∧
      (G.retired = true → Handled s c →
        ∃ t : State, exec (.ttake a g) s = .next t ∧ Taken t c .stale c.spl.act c.pc ∧ SameMemory s t)))

/-- R165, R166, R182: arrivals and waits on a slot's phase, and the two instructions that read a slot later. -/
def Obligations.TileReaders : Prop :=
  ∀ (s : State) (c : Issuer) (a b : BitVec 5) (n : Nat) (x : TileSlot), Issues s c → s.tile? c a.toNat = some (n, x) →
    (∀ k : BitVec 6, exec (.tarv a k) s = .next ((s.modCore c.team.core fun q =>
      { q with arrivals := q.arrivals ++ [⟨n, k.toNat, c.tid, c.gid, s.nextOrd⟩] }).becomes c (c.advanced s c.next c.grp))) ∧
    (∀ p : BitVec 7,
      let past := ((x.p : Int) - p.toNat) % 128
      (1 ≤ past ∧ past ≤ 64 → Completes (.tawt a p) s c c.grp) ∧
      (¬ (1 ≤ past ∧ past ≤ 64) → exec (.tawt a p) s =
        .next (s.modSplit c.tid c.gid c.sid fun e => { e with wait := .tawt n p.toNat, st := .blocked }))) ∧
    (∀ r : BitVec 6, r.toNat % 2 = 0 → c.grp.sComing r.toNat = false → c.grp.sComing (r.toNat + 1) = false →
      ∃ o : LOp, exec (.tstat a r) s = .next (State.becomes { s with nextOrd := s.nextOrd + 1 } c
          (c.advanced s c.next { c.grp with ops := c.grp.ops ++ [o], nextOp := c.grp.nextOp + 1 })) ∧
        o.id = c.grp.nextOp ∧ o.kind = .tstat c.team.core n r.toNat s.nextOrd ∧ o.sdests = [r.toNat, r.toNat + 1] ∧ o.dests = [] ∧ o.pc = c.pc) ∧
    (∀ r : BitVec 6, s.alloc c.team c.grp [2 * b.toNat, 2 * b.toNat + 1] 2 = .ok →
      ∃ o : LOp, exec (.ttov a b r) s = .next (State.becomes { s with nextOrd := s.nextOrd + 1 } c
          (c.advanced s c.next { c.grp with ops := c.grp.ops ++ [o], nextOp := c.grp.nextOp + 1 })) ∧
        o.id = c.grp.nextOp ∧ o.kind = .ttov c.team.core n r.toNat s.nextOrd c.spl.act ∧ o.dests = [2 * b.toNat, 2 * b.toNat + 1] ∧
        o.pc = c.pc)

/-- R165, R168, R172, R173, R177 to R181: a tile command or an unbraided matrix command is numbered on the group's matrix context with what
it read at issue; it has no future of its own. -/
def Obligations.TileCommands : Prop :=
  (∀ d a b n f1 cvt c3 k2 f2 k4 row, ∀ w ∈ tileCommands d a b n f1 cvt c3 k2 f2 k4 row, w.Complete) ∧
    ∀ d a b r, ∀ w ∈ matrixCommands d a b r, w.Complete

/-- R184 to R189, R194 to R198, R202: a GE command is numbered on its context, and q[q] takes its future. WBLD (R171, R187) also fixes what
its weight-buffer entry will be. -/
def Obligations.EngineCommands : Prop :=
  (∀ q a b t r d, ∀ w ∈ copyCommands q a b t r d, w.Complete) ∧ (∀ q a b t v l d k, ∀ w ∈ farCommands q a b t v l d k, w.Complete) ∧
    ∀ (s : State) (c : Issuer) (q : BitVec 4) (a : BitVec 6) (e : BitVec 5) (k w : BitVec 2) (z : Bool) (x : ECtx), Issues s c →
      (∀ n ∈ [a.toNat, a.toNat + 1], c.grp.sComing n = false ∧ c.grp.sbad.contains n = false) → w ≠ 3 → k ≠ 3 → (k = 0 ∨ z = true ∧ w ≠ 0) →
      s.ectxs.find? c.grp.cctx = some x → x.full = false →
      ∃ u : State, exec (.wbld q a e k w z) s = .next (u.becomes c (c.advanced s c.next
          (c.grp.setQ q.toNat (BitVec.ofNat 64 (c.grp.cctx * 2 ^ 40 + (x.issued + 1) % 2 ^ 40))))) ∧
        (∃ o : EOp, u.ectxs = s.ectxs.modify c.grp.cctx (fun y => { y with issued := x.issued + 1, pend := y.pend ++ [o] }) ∧
          o.num = x.issued + 1 ∧ o.cmd = .wbld e.toNat (c.grp.spair a.toNat) z w.toNat k.toNat ∧ o.ord = s.nextOrd) ∧
        (∃ y, (u.core c.team.core).weights.find? e.toNat = some y ∧ y.width = w.toNat ∧ y.compressed = z ∧ y.scale = k.toNat ∧
          y.space = c.team.space) ∧
        u.teams = s.teams ∧ u.mem = s.mem

/-- R20, R159: a dead handle of a tile or engine command raises STALE at issue, and nothing is numbered. R174: a braided matrix command
waits in its core's knot; the last of two members ties the knot: each operation is numbered on its own group's matrix context, and both
splits go on. -/
def Obligations.StaleAndBraided : Prop :=
  ((∀ d a b n f1 cvt c3 k2 f2 k4 row, ∀ w ∈ tileCommands d a b n f1 cvt c3 k2 f2 k4 row, w.Stale) ∧
    ∀ q a b t r d, ∀ w ∈ copyCommands q a b t r d, w.Stale) ∧
  (∀ (d a b : BitVec 5) (r : BitVec 2), ∀ x ∈ braidCommands d a b r, ∀ (w : Command) (s : State) (c : Issuer), x.2.1 = some w → Issues s c →
    TilesOk s c w.tiles → w.ok s c = true → Roomy s c.grp.mctx → c.brdOk = true →
    let ks := (s.core c.team.core).knot
    let bound := x.2.2.2 s c
    let n := (List.range 32).countP fun i => c.grp.brd.getLsbD i
    let cmd := w.cmd s c (slotAt s c)
    let set := s.nextOrd + 1
    (∀ k ∈ ks, Agrees c x.2.2.1 bound k) →
    (ks.length + 1 < n → exec x.1 s = .next ((s.modCore c.team.core fun q =>
      { q with knot := q.knot ++ [⟨c.tid, c.gid, c.sid, c.grp.brd, x.2.2.1, bound, c.spl.fmt, c.m, cmd⟩] }).becomes c
        { (c.grp.modSplit c.sid fun e => { e with wait := .knot, st := .blocked }) with
          lastIssue := s.issues + 1, issued := if c.grp.saved.isSome then c.grp.issued else c.grp.issued + 1 })) ∧
    (∀ (k : KnotMember) (H : Group) (e : Split), ks = [k] → n = 2 → k.grp < 32 → c.gid < 32 → c.team.groups.find? k.grp = some H →
      H.splits.find? k.split = some e → e.wait = .knot → e.st = .blocked → H.mctx ≠ c.grp.mctx → Roomy s H.mctx →
      ∃ t : State, exec x.1 s = .next t ∧ (t.core c.team.core).knot = [] ∧ t.mem = s.mem ∧
        (∀ X, s.ectxs.find? c.grp.mctx = some X → ∃ Y o, t.ectxs.find? c.grp.mctx = some Y ∧ Y.issued = X.issued + 1 ∧
          Y.pend = X.pend ++ [o] ∧ o.num = X.issued + 1 ∧ o.cmd = cmd.ofBraid set ∧ o.grp = c.gid) ∧
        (∀ X, s.ectxs.find? H.mctx = some X → ∃ Y o, t.ectxs.find? H.mctx = some Y ∧ Y.issued = X.issued + 1 ∧
          Y.pend = X.pend ++ [o] ∧ o.num = X.issued + 1 ∧ o.cmd = k.cmd.ofBraid set ∧ o.grp = k.grp) ∧
        (∃ y, t.split? c.tid c.gid c.sid = some y ∧ y.wait = .none ∧ y.st = if c.m then .blocked else .ready) ∧
        ∃ y, t.split? c.tid k.grp k.split = some y ∧ y.pc = e.pc + 4 ∧ y.wait = .none ∧ y.st = if k.m then .blocked else .ready))

/-- R157: a future with context c and number n is complete exactly when c = 0, or (counter(c) − n) mod 2^40 < 2^39. -/
def Obligations.FutureTest : Prop :=
  ∀ (s : State) (c n : Nat), (c = 0 → s.futureDone c n = true) ∧
    ∀ x : ECtx, s.ectxs.find? c = some x →
      (s.futureDone c n = true ↔ c = 0 ∨ ((x.counter : Int) - n) % 2 ^ 40 < 2 ^ 39)

/-- R190: BATCH sets q[q] to the future of the last operation that the group issued on the chosen group context; a number 0 is complete at
once; code 3 is reserved. -/
def Obligations.BatchFuture : Prop :=
  (∀ (s : State) (c : Issuer) (q : BitVec 4) (e : BitVec 2) (x : ECtx), Issues s c →
    let id := if e = 0 then c.grp.mctx else if e = 1 then c.grp.cctx else c.grp.gctx
    s.ectxs.find? id = some x →
    Completes (.batch q e) s c (c.grp.setQ q.toNat (BitVec.ofNat 64 (id * 2 ^ 40 + x.issued % 2 ^ 40))) ∧
      (x.issued = 0 → x.counter = 0 → s.futureDone id 0 = true)) ∧
    ∀ q : BitVec 4, (Instr.batch q 3).wellFormed = false

/-- R193: QMOV moves futures without waiting on them: form 0 q[q] := S64(sa), form 1 S64(sa) := q[q], form 2 q[q] := q[M]; form 3 is
reserved, and in forms 0 and 1 sa is even. -/
def Obligations.FutureMoves : Prop :=
  (∀ (s : State) (c : Issuer) (q n : BitVec 4) (a : BitVec 6), Issues s c →
    (WordReady c [a.toNat, a.toNat + 1] [] →
      Completes (.qmov q a n 0) s c (c.grp.setQ q.toNat (pair (c.grp.sreg (a.toNat + 1)) (c.grp.sreg a.toNat)))) ∧
    (WordReady c [] [a.toNat, a.toNat + 1] → ∃ (S : SMap Word) (B : List Nat), Completes (.qmov q a n 1) s c { c.grp with s := S, sbad := B } ∧
      pair (SMap.getD S (a.toNat + 1) 0) (SMap.getD S a.toNat 0) = c.grp.qreg q.toNat ∧
      ∀ m, m ≠ a.toNat → m ≠ a.toNat + 1 → SMap.getD S m 0 = c.grp.sreg m ∧ (m ∈ B ↔ m ∈ c.grp.sbad)) ∧
    Completes (.qmov q a n 2) s c (c.grp.setQ q.toNat (c.grp.qreg n.toNat))) ∧
    ∀ (q n : BitVec 4) (a : BitVec 6), (Instr.qmov q a n 3).wellFormed = false ∧
      ((Instr.qmov q a n 0).wellFormed = true → a.toNat % 2 = 0 ∧ n = 0) ∧ ((Instr.qmov q a n 1).wellFormed = true → a.toNat % 2 = 0 ∧ n = 0) ∧
      ((Instr.qmov q a n 2).wellFormed = true → a = 0)

/-- R158, R191: WAITTL waits for its threshold, then goes on, or raises FUTURE for the lowest failure at or below it, which is reported
once; TESTTL answers 0, 1 or 2 and never waits. R192: CANCEL completes what has not started of the context, up to the future's number, with
no effect; of a future without a context it does nothing; another team's context is PROT. -/
def Obligations.FutureWaits : Prop :=
  (∀ (s : State) (c : Issuer) (q : BitVec 4) (a l : BitVec 6) (x : ECtx), Issues s c →
    let f := (c.grp.qreg q.toNat).toNat
    let id := f / 2 ^ 40
    let n : Nat := (f % 2 ^ 40 + 2 ^ 40 - l.toNat) % 2 ^ 40
    let put (v : Word) : Prop := c.grp.sBusy a.toNat = false → Completes (.testtl q a l) s c (c.grp.setS a.toNat v)
    (id = 0 → Completes (.waittl q l) s c c.grp ∧ put 1) ∧
    (id ≠ 0 → s.ectxs.find? id = some x → s.mayWait c.team id = true →
      let due (r : FailRec) : Prop := ((n : Int) - (r.num : Int)) % 2 ^ 40 < 2 ^ 39
      (s.futureDone id n = false →
        exec (.waittl q l) s = .next (s.modSplit c.tid c.gid c.sid fun e => { e with wait := .future id n, st := .blocked }) ∧ put 0) ∧
      (s.futureDone id n = true → (∀ r ∈ x.failed, ¬ due r) → Completes (.waittl q l) s c c.grp ∧ put 1) ∧
      (s.futureDone id n = true → ∀ r ∈ x.failed, due r → (∀ y ∈ x.failed, due y → y ≠ r → r.num < y.num) → put 2 ∧
        (Handled s c → ∃ t : State, exec (.waittl q l) s = .next t ∧ TakenAt t c.tid c.gid .future r.cause.num c.spl.act c.pc ∧
          SameMemory s t ∧ ∃ y, t.ectxs.find? id = some y ∧ y.failed = x.failed.filter fun z => z.num != r.num))) ∧
    (id ≠ 0 → s.mayWait c.team id = false → Handled s c →
      ∃ t : State, exec (.waittl q l) s = .next t ∧ Taken t c .prot c.spl.act c.pc ∧ SameMemory s t)) ∧
  (∀ (s : State) (c : Issuer) (q : BitVec 4) (x : ECtx), Issues s c →
    let f := (c.grp.qreg q.toNat).toNat
    let id := f / 2 ^ 40
    (id = 0 → Completes (.cancel q) s c c.grp) ∧
    (id ≠ 0 → id ∈ [c.grp.mctx, c.grp.cctx, c.grp.gctx, s.fctxOf c.team] → s.ectxs.find? id = some x →
      (∀ o ∈ x.pend, o.pins = []) → (x.pend.map EOp.num).Nodup →
      ∃ u : State, exec (.cancel q) s = .next (u.becomes c (c.advanced s c.next c.grp)) ∧ u.mem = s.mem ∧ u.teams = s.teams ∧
        ∃ y, u.ectxs.find? id = some y ∧ y.failed = x.failed ∧ y.issued = x.issued ∧
          y.pend = x.pend.filter fun o => o.running || !decide (((f % 2 ^ 40 : Nat) - (o.num : Int)) % 2 ^ 40 < 2 ^ 39)) ∧
    (id ≠ 0 → id ∉ [c.grp.mctx, c.grp.cctx, c.grp.gctx, s.fctxOf c.team] → Handled s c →
      ∃ t : State, exec (.cancel q) s = .next t ∧ Taken t c .prot c.spl.act c.pc ∧ SameMemory s t))

/-- R196, R199, R201: RSTEP opens and closes a group's step on a record; RVIEW and KVALLOC ask the package scheduler; the answers are
written later. RWIDEN and RNARROW leave their request in the record, or are dropped. -/
def Obligations.RopeSteps : Prop :=
  ∀ (s : State) (c : Issuer) (a b : BitVec 6) (k : Nat) (r : Rec) (q : Seq), Issues s c → WordReady c [a.toNat, a.toNat + 1] [] →
    let rec' := (pair (c.grp.sreg (a.toNat + 1)) (c.grp.sreg a.toNat)).toNat
    let pushed (G : Group) (o : LOp) : Group := { G with ops := G.ops ++ [o], nextOp := G.nextOp + 1 }
    let asks (o : LOp) (kind : LKind) (n : Nat) : Prop := o.id = c.grp.nextOp ∧ o.kind = kind ∧ o.pc = c.pc ∧
      o.sdests = (List.range n).map (b.toNat + ·) ∧ o.dests = [] ∧ o.res = []
    (AtRecord s c rec' k r q →
      (c.grp.step = none → q.commit = false →
        let step : RopeStep := ⟨rec', (q.members.findIdx? (· == c.team.core / 192)).getD 15, s.nextOrd, false⟩
        ∃ o : LOp, exec (.rstepBegin a b) s = .next (State.becomes
            { s with seqs := s.seqs.modify (seqKey c.team.space rec') (fun x => { x with steps := x.steps ++ [(c.tid, c.gid)] })
                     nextOrd := s.nextOrd + 1 } c
            (c.advanced s c.next (pushed { c.grp with step := some step } o))) ∧ asks o (.view true rec' b.toNat) 6) ∧
      (∃ o : LOp, Completes (.rview a b) s c (pushed c.grp o) ∧ asks o (.view false rec' b.toNat) 6) ∧
      (c.grp.sbad.contains (a.toNat + 2) = false → c.grp.sComing (a.toNat + 2) = false →
        ∃ o : LOp, Completes (.kvalloc a b) s c (pushed c.grp o) ∧
          asks o (.kvalloc rec' (c.grp.sreg (a.toNat + 2)).toNat b.toNat) 1) ∧
      (∀ w : BitVec 6,
        (w.toNat ≤ r.w → Completes (.rwiden a w) s c c.grp) ∧ (r.w ≤ w.toNat → Completes (.rnarrow a w) s c c.grp) ∧
        ∀ m, s.translate c.team.space (rec' + 8) .write false = .hit m →
          let asked : Res := .next ((s.store m (natBytes 1 (r.w + 16 * w.toNat))).becomes c (c.advanced s c.next c.grp))
          (r.w < w.toNat → exec (.rwiden a w) s = asked) ∧ (w.toNat < r.w → exec (.rnarrow a w) s = asked))) ∧
    (∀ x, c.grp.step = some x → x.closing = false → x.record = rec' →
      ∃ o : LOp, exec (.rstepEnd a) s = .next (State.becomes { s with nextOrd := s.nextOrd + 1 } c
          (c.advanced s c.next (pushed { c.grp with step := some { x with closing := true } } o))) ∧
        o.id = c.grp.nextOp ∧ o.kind = .stepEnd rec' s.nextOrd ∧ o.sdests = [] ∧ o.dests = []) ∧
    (Handled s c → ((∀ x, c.grp.step = some x → x.closing = true ∨ x.record ≠ rec') →
      ∃ t : State, exec (.rstepEnd a) s = .next t ∧ Taken t c .illegal c.spl.act c.pc ∧ SameMemory s t) ∧
      (∀ x, c.grp.step = some x → x.closing = false →
        ∃ t : State, exec (.rstepBegin a b) s = .next t ∧ Taken t c .illegal c.spl.act c.pc ∧ SameMemory s t) ∧
      (rec' % 256 ≠ 0 → ∀ w : BitVec 6, ∃ t : State, exec (.rwiden a w) s = .next t ∧ Taken t c .align c.spl.act c.pc ∧ SameMemory s t))

/-! ## Events of splits and of outstanding instructions -/

/-- R68, R124, R125, R131, R136: what ends a split's wait, and when: its marker's kind-L work is complete; the word that WAITM watches has
changed, or its limit has come; SLEEP's and YIELD's limits; the driver's answer to a SYSCALL, whose result words go to s0 and s1. How time
gets there is the model's choice (log entry 1). R104, R117: a rendezvous that has waited JTO cycles raises MEMBER with the lanes of its mask
that other splits hold elsewhere; a timed join lets the arrived children go on and gives the late ones to the parent's own parent. -/
def Obligations.WaitsEnd : Prop :=
  (∀ (s : State) (t g i : Nat) (T : Team) (G : Group) (e : Split), AtSplit s t g i T G e → e.st = .blocked →
    (∀ n, e.mark = some n → e.wait = .none → (∀ o ∈ G.ops, n ≤ o.id) →
      ((∀ f ∈ G.held, n ≤ f.op) → Frees .markerRelease s s t g i e none) ∧
      (HandledAt s T G → ∀ f, G.held = [f] → f.op < n → f.detail = 0 →
        ∃ u H, exec .markerRelease s = .next u ∧ SameMemory s u ∧ (∃ X, u.teams.find? t = some X ∧ X.st = .halting g) ∧
          u.group? t g = some H ∧ H.held = [] ∧ H.fr.flt = f.lanes ∧ H.fr.fpc = f.pc ∧
          H.fr.fcause.toNat = f.cause.num + 65536 * f.held.toNat)) ∧
    (∀ d, e.wait = .sleep d → Frees .sleepExpiry s (s.from d) t g i e e.mark) ∧
    (∀ others since limit, e.wait = .yield others since limit →
      let still := ∃ o ∈ others, ∃ H, s.group? o.1 o.2 = some H ∧ H.retired = false ∧ H.lastIssue ≤ since
      (¬ still → Frees .yieldExpiry s s t g i e e.mark) ∧ (still → Frees .yieldExpiry s (s.from limit) t g i e e.mark)) ∧
    (∀ addr x limit since k, e.wait = .monitor addr x limit since → s.translate T.space addr .read G.privileged = .hit k →
      (∀ w ∈ wordsOf k 4, w ∉ s.latent) →
      (s.poisoned k 4 = false → bytesWord (s.bytes k 4) ≠ x → Frees .waitmWake s s t g i e e.mark) ∧
      (bytesWord (s.bytes k 4) = x → ∀ d, limit = some d → Frees .waitmWake s (s.from d) t g i e e.mark)) ∧
    ∀ slot k, e.wait = .syscall slot → s.translate T.space slot .read true = .hit k → s.nat (k + 56) 4 % 2 = 1 →
      G.sBusy 0 = false → G.sBusy 1 = false →
      Frees .syscallDone s
        (s.modGroup t g fun G => (G.setS 0 (bytesWord (s.bytes (k + 48) 4))).setS 1 (bytesWord (s.bytes (k + 52) 4))) t g i e e.mark) ∧
  (∀ (s : State) (t g i : Nat) (T : Team) (G : Group) (e : Split), AtSplit s t g i T G e →
    (∀ pc mm guard since jto, e.wait = .member pc mm guard since jto → jto ≠ 0 → e.st = .blocked → G.executing pc mm = false → HandledAt s T G →
      let away := G.splits.filter fun x => (x.1 == i || (x.2.st != .parent && x.2.mask &&& mm != 0)) && x.2.memberAt != some (pc, mm)
      ∃ u, exec .memberTimeout s = .next u ∧ u.now = max s.now (since + 5 * jto) ∧ TakenAt u t g .member 0 (lanesOf mm away) pc ∧
        SameMemory s u) ∧
    ∀ d kids arrived late, e.timer = some d → e.st = .parent → T.st = .running →
      kids = G.splits.filter (fun x => x.1 != i && x.2.parent == i) →
      arrived = kids.filter (fun x => x.2.st == .arrived) → late = kids.filter (fun x => !(x.2.st == .arrived)) →
      Undisturbed G (arrived.map Prod.fst) (some i) → (∀ x ∈ kids, x.1 ≠ e.parent) → (∀ x ∈ arrived, x.2.mark = none) →
      let all := arrived.foldl (fun m x => m ||| x.2.mask) 0#32
      all ≠ 0 →
      let jpcOf (n : Nat) : BitVec 55 := match G.splits.find? n with | some p => p.jpc | none => 0
      ∃ u H, exec .jointTimeout s = .next u ∧ u.now = max s.now d ∧ SameMemory s u ∧ u.group? t g = some H ∧
        (∀ x ∈ arrived, H.splits.find? x.1 = none) ∧
        (∃ p, H.splits.find? i = some p ∧ p.mask = all ∧ p.act = all ∧ p.pc = (0#7 ++ e.jpc ++ 0#2 : BitVec 64) + 4 ∧ p.st = .ready ∧
          p.tof = true ∧ p.timer = none ∧ p.fmt = e.fmt ∧ p.parent = e.parent ∧ p.jpc = if e.parent = i then 0 else jpcOf e.parent) ∧
        (∀ x ∈ late, H.splits.find? x.1 = some (if e.parent = i then { x.2 with parent := x.1, jpc := 0 }
          else { x.2 with parent := e.parent, jpc := jpcOf e.parent })) ∧
        (∀ n, n ≠ i → (∀ x ∈ kids, n ≠ x.1) → H.splits.find? n = G.splits.find? n) ∧ H.v = G.v ∧ H.s = G.s ∧ H.p = G.p)

/-- R67, R81, R109, R137, R142, R146, R244: results come one lane at a time, a 16-byte load's by halves: a unit's, a load's from the group's
own buffer or from memory, a pad load's, an atomic's old value, whose location takes the new one; SDIVN's quotient goes to its s register.
Each access is one step (log entry 20). -/
def Obligations.LaneResults : Prop :=
  (∀ (s : State) (t g id k : Nat) (T : Team) (G : Group) (o : LOp), AtLane s t g id k T G o →
    ∀ ws, o.kind = .unit → o.res.find? (fun r => r.1 == k) = some (k, ws) →
      ∃ u, Gives .longLatencyResult s u t g id k G o 0 ws ∧ SameMemory s u) ∧
  (∀ (s : State) (t g id : Nat) (T : Team) (G : Group) (o : LOp) (a : LaneAcc), AtAccess s t g id T G o a →
    let i0 := 2 * a.part
    (∀ size signed acq key, o.kind = .load size signed acq → a.size ∈ [1, 2, 4, 8, 16] → a.key = some key → s.loadWaits t g G o a key = false →
      let own := G.forward id a.ord key a.size
      (∀ j < a.size, SMap.find? own (key + j) = none → s.poisoned (key + j) 1 = false) →
      ∃ u, Gives .loadDataReturn s u t g id a.lane G o i0
          (wordsOfLoad a.size signed ((List.range a.size).map fun j => SMap.getD own (key + j) (memByte s.mem (key + j)))) ∧ SameMemory s u) ∧
    (∀ p P, a.pad = some p → s.teams.find? p = some P → P.here = true → G.padWaits t o a = false →
      (∀ size, o.kind = .padLoad size → a.size ∈ [4, 8, 16] → s.fenced t g G a.ord true = false → P.padPoisoned a.ea.toNat a.size = false →
        ∃ u, Gives .loadDataReturn s u t g id a.lane G o i0
          (wordsOfLoad a.size false ((List.range a.size).map fun j => SMap.getD P.pad (a.ea.toNat + j) 0)) ∧ SameMemory s u) ∧
      (∀ code, o.kind = .padAtomic code → o.lowerFirst a = false → s.fenced t g G a.ord false = false → P.padPoisoned a.ea.toNat 4 = false →
        let old := bytesWord (P.padBytes a.ea.toNat 4)
        ∃ u, Gives .atomicResultReturn s u t g id a.lane G o 0 [old] ∧ SameMemory s u ∧
          ∃ Q, u.teams.find? p = some Q ∧ bytesWord (Q.padBytes a.ea.toNat 4) = atomicNew code old (bytesWord a.data) a.cmp)) ∧
    ∀ code key, o.kind = .atomic code true → a.key = some key → s.atomicWaits t g G o a key = false → s.poisoned key 4 = false →
      (s.pkg.hostLate = [] ∨ key < hostKey ∨ code ∈ [0, 11, 12]) →
      let old := bytesWord (s.bytes key 4)
      ∃ u, Gives .atomicResultReturn s u t g id a.lane G o 0 [old] ∧
        Stored s u key (wordBytes (atomicNew code old (bytesWord a.data) a.cmp))) ∧
  ∀ (s : State) (t g id : Nat) (G : Group) (o : LOp) (d : Nat) (q : Word), s.ev = .op t g id → s.group? t g = some G → G.op? id = some o →
    o.kind = .sdiv d q → (∀ x ∈ G.ops, x ≠ o → x.id ≠ id) → (∀ x ∈ G.ops, x.id < id → d ∉ x.sdests) →
    ∃ u H, exec .longLatencyResult s = .next u ∧ SameMemory s u ∧ u.group? t g = some H ∧ H.op? id = none ∧ H.sreg d = q ∧
      d ∉ H.sbad ∧ (∀ n, n ≠ d → H.sreg n = G.sreg n) ∧ H.p = G.p ∧ H.q = G.q ∧ H.t = G.t

/-- R138 to R140, R142, R146, R255: a walked store enters the write buffer and leaves it for memory, or, at host memory, for the host link
as a posted write; a buffered reduction is applied there; a pad store goes to its pad.
Each access is one step (log entry 20). -/
def Obligations.Stores : Prop :=
  (∀ (s : State) (t g id k : Nat) (T : Team) (G : Group) (b : Buffered), s.ev = .lane t g id k → s.teams.find? t = some T → T.here = true →
    T.groups.find? g = some G → G.wbuf.find? (fun b => b.id == id && b.tag == k) = some b → s.mayPerform t g G b = true →
    let left := G.wbuf.filter fun x => !(x.id == id && x.tag == k)
    let gone (u : State) : Prop := ∃ H, u.group? t g = some H ∧ H.wbuf = left ∧ H.s = G.s ∧ H.p = G.p ∧ H.q = G.q ∧ H.t = G.t ∧
      ((∀ o ∈ G.ops, o.id ≠ id ∧ o.due G.padFault = false) → H = { G with wbuf := left })
    (b.red = none → ∃ u, exec .storePerformed s = .next u ∧ gone u ∧
      ((∀ x ∈ b.bytes, x.1 < hostKey) → u.pkg = s.pkg ∧
        ∀ a, memByte u.mem a = match b.bytes.reverse.find? (fun x => x.1 == a) with | some x => x.2 | none => memByte s.mem a) ∧
      ((∃ x ∈ b.bytes, hostKey ≤ x.1) → u.mem = s.mem ∧ u.pkg = { s.pkg with posted := s.pkg.posted ++ [⟨t, g, b.bytes⟩] })) ∧
    ∀ code key, b.red = some code → b.bytes.head?.map Prod.fst = some key → s.poisoned key 4 = false →
      (s.pkg.hostLate = [] ∨ key < hostKey ∨ code ∈ [0, 11, 12]) →
      ∃ u, exec .storePerformed s = .next u ∧ gone u ∧
        Stored s u key (wordBytes (atomicNew code (bytesWord (s.bytes key 4)) (bytesWord (b.bytes.map Prod.snd)) 0))) ∧
  ∀ (s : State) (t g id : Nat) (T : Team) (G : Group) (o : LOp) (a : LaneAcc), s.teams.find? t = some T → T.here = true →
    T.groups.find? g = some G → G.op? id = some o → o.accs.find? (fun b => b.tag == a.tag) = some a → (∀ x ∈ G.ops, x ≠ o → x.id ≠ id) →
    o.kind.isView = false →
    (∀ p P, s.ev = .lane t g id a.tag → o.kind = .padStore → a.pad = some p → s.teams.find? p = some P → P.here = true →
      G.padWaits t o a = false → G.padHigher o a = false → s.fenced t g G a.ord false = false →
      ∃ u Q, exec .padWordWritten s = .next u ∧ SameMemory s u ∧ u.teams.find? p = some Q ∧
        ∀ j, SMap.getD Q.pad j 0 = if a.ea.toNat ≤ j ∧ j < a.ea.toNat + a.data.length then a.data.getD (j - a.ea.toNat) 0
          else SMap.getD P.pad j 0) ∧
    (∀ key, s.ev = .walk (.lane t g id a.lane) → a.part = 0 → a.key = none → a.pad = none → a.fab = false → a.token = none →
      G.replayBefore a = false → s.heldBack t g G o = false → (∀ x ∈ G.ops, x.id < id → ∀ b ∈ x.accs, b.token = none) →
      let code : Access := if o.kind.isLoad then .read else .write
      s.translate T.space a.ea.toNat code o.handler = .hit key →
      let entered (H : Group) (red rel : Option Nat) : Prop := H.wbuf.length = (o.accs.filter fun b => b.lane == a.lane).length ∧
        ∀ b ∈ o.accs, b.lane = a.lane → ∃ y ∈ H.wbuf, y.id = id ∧ y.lane = b.lane ∧ y.part = b.part ∧ y.ord = b.ord ∧ y.red = red ∧
          y.release = rel ∧ y.bytes = b.data.zipIdx.map fun x => (key + 8 * b.part + x.2, x.1)
      ∃ u H, exec .translationWalk s = .next u ∧ SameMemory s u ∧ u.group? t g = some H ∧ H.s = G.s ∧
        ((∃ n z q, o.kind = .load n z q) ∨ (∃ n, o.kind = .atomic n true) → ∃ x, H.op? id = some x ∧
          x.accs = o.accs.map fun b => if b.lane = a.lane then { b with key := some (key + 8 * b.part) } else b) ∧
        (∀ sc, o.kind = .store sc → G.wbuf = [] → o.shadow = [] → entered H none (if sc = some 0 then none else sc)) ∧
        (∀ n, o.kind = .atomic n false → G.wbuf = [] → entered H (some n) none))

/-- R196, R199, R201, R305: the package scheduler's answer arrives: the registers that an RSTEP.begin, an RVIEW or a KVALLOC asked for are
written, and the instruction is complete. A view's six words are the record's: view number, width with the member, the member's token range,
the token count; an operation whose die is no member gets 15 and an empty range. -/
def Obligations.SchedulerAnswers : Prop :=
  (∀ (s w : State) (t g id d : Nat) (T : Team) (G : Group) (o : LOp) (a : LaneAcc) (ws : List Word), Asked s t g id T G o a →
    let ag : Agent := ⟨T.space, T.core, a.declined, false⟩
    runWork s ag (.lane t g id 0) (answerW ag G T.core o.kind) = .done (d, ws) w → w.group? t g = some G →
    ∃ u H, exec .viewRegistersWritten s = .next u ∧ u.mem = w.mem ∧ u.group? t g = some H ∧ H.op? id = none ∧
      (∀ j < ws.length, H.sreg (d + j) = ws.getD j 0) ∧ (∀ n, n < d ∨ d + ws.length ≤ n → H.sreg n = G.sreg n) ∧ H.p = G.p ∧ H.q = G.q) ∧
  ∀ (s : State) (t g id d rec k : Nat) (opens : Bool) (T : Team) (G : Group) (o : LOp) (a : LaneAcc) (r : Rec) (q : Seq),
    Asked s t g id T G o a → o.kind = .view opens rec d → RecordAt s T.space rec k r q →
    let m := if opens then (match G.step with | some x => x.member | none => 15) else (q.members.findIdx? (· == T.core / 192)).getD 15
    let size := 2 ^ r.granule
    let units := (r.n + size - 1) / size
    let first := if m = 15 then r.n else size * (m * units / r.w)
    let last := if m = 15 then r.n else min r.n (size * ((m + 1) * units / r.w))
    ∃ u H, exec .viewRegistersWritten s = .next u ∧ u.mem = s.mem ∧ u.group? t g = some H ∧ H.op? id = none ∧
      H.sreg d = BitVec.ofNat 32 (r.view % 2 ^ 32) ∧ H.sreg (d + 1) = BitVec.ofNat 32 (r.view / 2 ^ 32 % 2 ^ 32) ∧
      H.sreg (d + 2) = BitVec.ofNat 32 (r.w + 16 * m) ∧ H.sreg (d + 3) = BitVec.ofNat 32 first ∧ H.sreg (d + 4) = BitVec.ofNat 32 last ∧
      H.sreg (d + 5) = BitVec.ofNat 32 r.n ∧ (∀ n, n < d ∨ d + 6 ≤ n → H.sreg n = G.sreg n) ∧ H.p = G.p ∧ H.q = G.q

/-! ## Engine operations and teams -/

/-- R154 to R156, R161, R175, R185, R366: an operation that its engine and the scoreboard let go starts; a k-step goes to the matrix
operation whose turn it is; a finished or failed operation leaves its context, and the counter passes it. A copy of one run writes the bytes
it read. When an operation takes its effect is the model's choice (log entry 22). R163, R303: a freed slot whose operations are over is
zeroed and free under its generation; a block without references and pins is zeroed and returns to its pool. -/
def Obligations.EngineOperations : Prop :=
  ((∀ (s : State) (ctx num : Nat) (x : ECtx) (o : EOp), AtEngine s ctx num x o →
    (s.opReady o = true → s.engineFree ctx x o = true → o.cmd.isFabric = false → (ECmd.startWork ctx o).isNone = true →
      (∀ rec, o.cmd.record = some rec → s.retiring o.space rec.toNat = false) →
      exec .engineOpStart s = .next (s.modEop ctx num fun o => { o with running := true, since := s.now })) ∧
    (x.done = [] → num = x.counter + 1 → o.running = true → o.wait = [] → s.opHere o = true → o.num = num →
      (∀ d a b wb m f r sa sb n, o.cmd = .mma d a b wb m f r sa sb n → o.prog = 8 → o.failure = none →
        ∃ u, exec .engineOpComplete s = .next u ∧ Counted u ctx x num [] ∧ u.mem = s.mem) ∧
      (∀ cause a, o.failure = some (cause, a) → o.cmd.isFabric = false → (∀ p q n, o.cmd ≠ .copy p q n) →
        ∃ u, exec .engineOpComplete s = .next u ∧ Counted u ctx x num [⟨num, cause, a, o.iters⟩] ∧ u.mem = s.mem ∧
          ∀ n ∈ o.cmd.names, n < 256 → ∀ y, s.slot? o.core n = some y → ∃ z, u.slot? o.core n = some z ∧ z.failed = true ∧ z.bytes = y.bytes) ∧
      ∀ src dst len ks kd, o.cmd = .cpy src dst len [] false → o.prog = 0 → o.failure = none → 0 < len → len ≤ 4096 →
        windowOf src.toNat < 2 → windowOf dst.toNat < 2 → src.toNat % 65536 + len ≤ 65536 → dst.toNat % 65536 + len ≤ 65536 →
        s.translate o.space src.toNat .read false = .hit ks → s.translate o.space dst.toNat .write false = .hit kd →
        ∃ u, exec .engineOpComplete s = .next u ∧ Counted u ctx x num [] ∧ Stored s u kd (s.bytes ks len))) ∧
  ∀ (s : State) (c slot ctx : Nat) (o : EOp), s.ev = .core c → s.turn c = some (slot, ctx, o) →
    let w := s.modCore c fun k => { k with served := some slot }
    (w.kstepBad o o.prog = false → exec .matrixKstep s = .next ((w.kstep o).modEop ctx o.num fun o => { o with prog := o.prog + 1 })) ∧
    (w.kstepBad o o.prog = true → exec .matrixKstep s = .next (w.modEop ctx o.num fun o => { o with failure := some (.ecc, 0) }))) ∧
  ((∀ (s : State) (c n : Nat) (x : TileSlot), s.ev = .slot c n → s.slot? c n = some x → x.busy = true → x.alloc = false →
    (∀ y ∈ s.eops, y.2.core = c → s.opHere y.2 = true → n ∉ y.2.cmd.names) →
    (∀ y ∈ s.teams, y.2.core = c → y.2.here = true → n ∉ y.2.slots) → s.tileReader c n s.nextOrd = false →
    (∀ m ∈ (s.core c).knot, n ∉ m.cmd.names) →
    ∃ u, exec .tileSlotRelease s = .next u ∧ u.slot? c n = some ⟨false, false, 0, 0, x.gen, 0, 0, 0, false, [], []⟩ ∧
      (∀ m, m ≠ n → u.slot? c m = s.slot? c m) ∧ u.mem = s.mem ∧ u.teams = s.teams) ∧
  ∀ (s : State) (space tier b k : Nat) (x : Ctx), s.ev = .block space tier b → s.ctxs.find? space = some x →
    s.frameKey tier (b * 65536) = some k → tier * 2 ^ 32 + b ∈ x.release → SMap.getD x.pins (tier * 2 ^ 32 + b) 0 = 0 →
    ∃ u y, exec .blockRelease s = .next u ∧ u.ctxs.find? space = some y ∧ b ∈ (if tier = 0 then y.pool0 else y.pool1) ∧
      tier * 2 ^ 32 + b ∉ y.release ∧ y.refs = x.refs ∧ u.teams = s.teams ∧
      ∀ a, memByte u.mem a = if k ≤ a ∧ a < k + 65536 then 0 else memByte s.mem a)

/-- R278, R281: when its groups have stopped, a team is HALTED and queues for its core's handler; the handler of the team that halted first
starts in the group that took the fault, with maps, predicates and a split of its own. How far siblings skid is free (log entry 11). R34,
R267: a team whose groups have retired, or that failed, leaves its completion record in the launch's area, and its core; the launch's
counter advances. Here for a team that is not its launch's last. -/
def Obligations.HaltsAndRetirement : Prop :=
  (∀ (s : State) (t : Nat) (T : Team), s.ev = .team t → s.teams.find? t = some T →
    ((∃ g, T.st = .halting g) → (∀ G ∈ T.groups, G.2.skidLeft = 0) →
      ∃ u X, exec .teamHalt s = .next u ∧ u.teams.find? t = some X ∧ X.st = .halted ∧ u.mem = s.mem ∧
        ((∀ k ∈ (s.core T.core).knot, k.team ≠ t) → ∀ g G, T.groups.find? g = some G → X.groups.find? g = some G.freeze) ∧
        (∀ k ∈ (u.core T.core).knot, k.team ≠ t) ∧
        (u.core T.core).haltQ = if T.debug then (s.core T.core).haltQ else (s.core T.core).haltQ ++ [t]) ∧
    ∀ g x G, T.st = .halted → T.debug = false → T.cause = none → T.handling = none → T.faulting = some g → T.groups.find? g = some G →
      s.ctxs.find? T.space = some x → (s.core T.core).handler = none → (s.core T.core).haltQ.head? = some t →
      ∃ u X H e, exec .handlerStart s = .next u ∧ u.teams.find? t = some X ∧ X.handling = some g ∧ X.st = .halted ∧
        (u.core T.core).handler = some t ∧ (u.core T.core).haltQ = (s.core T.core).haltQ.tail ∧ X.groups.find? g = some H ∧
        (∃ r, H.saved = some ⟨G.v, G.p, G.splits, G.held, G.nextOp, G.handled, r⟩ ∧
          ∀ d, SMap.find? G.splits G.handled = some d →
            r = ((if d.walks.any fun p => p.pc == G.fr.fpc then G.fr.fpc else d.pc) >>> 32).setWidth 32) ∧
        H.tvsel = G.tvsel ∧ H.hgsel = G.hgsel ∧ H.v = [] ∧ H.p = [] ∧ H.s = G.s ∧ H.fr = G.fr ∧
        H.splits = [(0, e)] ∧ e.mask = G.alive ∧ e.act = G.alive ∧ e.pc = x.handler ∧ e.fmt = 0 ∧ e.jpc = 0 ∧ e.parent = 0 ∧ e.st = .ready ∧
        (∀ h, h ≠ g → X.groups.find? h = T.groups.find? h) ∧ u.mem = s.mem) ∧
  (∀ (s : State) (t k : Nat) (T : Team) (L : Launch) (x : ECtx), s.ev = .team t → s.teams.find? t = some T →
    s.launches.find? T.launch = some L → T.here = true → T.over = true → T.miss = none → T.slots = [] → (∀ G ∈ T.groups, G.2.step = none) →
    (s.link T.sector).mayTell = true →
    L.retired.length + 1 ≠ L.grid * (L.width * L.height) → s.ectxs.find? T.launch = some x → x.done = [] →
    let j := T.cix * (L.width * L.height) + T.ty * L.width + T.tx
    x.counter = j →
    let addr := L.area.toNat + 256 * j
    addr % 256 = 0 → windowOf addr < 2 → s.translate L.space addr .write false = .hit k →
    let tix := T.tx + 2 ^ 4 * T.ty + 2 ^ 16 * L.width + 2 ^ 20 * L.height
    let status := match T.cause with | none => 0 | some c => 1 + 256 * c
    let faults := (List.range 32).flatMap fun g => wordBytes (match T.groups.find? g with | some G => G.padFault | none => 0)
    ∃ u X M y, exec .teamRetire s = .next u ∧
      Stored s u k (natBytes 4 status ++ wordBytes (BitVec.ofNat 32 tix) ++ natBytes 8 T.cix ++ natBytes 8 (s.now / 18) ++
        natBytes 4 T.groups.length ++ natBytes 4 0 ++ faults ++ natBytes 96 0) ∧
      u.teams.find? t = some X ∧ X.st = .retired ∧ X.groups = [] ∧ u.launches.find? T.launch = some M ∧ j ∈ M.retired ∧
      M.failed = (L.failed || T.cause.isSome) ∧ M.complete = false ∧ u.ectxs.find? T.launch = some y ∧ y.counter = j + 1)

/-- R22, R273, R285 to R289, R321: a team leaves its core for a contract's launch, for registers, or for a saved team while it is parked in
WAITM; without room in the save pool the register case fails the team. A saved team returns with its registers, pad and tiles.
Where the fields of the record stand in the save pool is in part the model's choice (log entry 32). -/
def Obligations.TeamsLeaveAndReturn : Prop :=
  ∀ (s : State) (t : Nat) (T : Team), s.teams.find? t = some T →
    (s.ev = .team t → T.here = true → T.cause = none → T.over = false → (s.launchOf T).any Launch.realtime = false →
      s.contractWaits (T.core / 24) = true → Quiet s t T → ∀ off, SaveRoom s t T off → ∃ w, exec .preemption s = .next w ∧ SavedOut s w t T off) ∧
    (∀ c, s.ev = .core c → s.starving c = some t → s.allStuck c = true → Quiet s t T →
      (∀ off, SaveRoom s t T off → ∃ w, exec .registerEvict s = .next w ∧ SavedOut s w t T off) ∧
      (s.saveRoom (s.vfOf T.space) (s.recordSize t T) = none →
        ∃ w X, exec .registerEvict s = .next w ∧ w.teams.find? t = some X ∧ X.st = .halted ∧ X.cause = some 0)) ∧
    (∀ b B off, s.ev = .teams t b → s.teams.find? b = some B → T.space = B.space → T.core / 24 = B.core / 24 → (T.candidate s.now).isSome = true →
      (∀ w, s.saveTeam t = some w → w.fitsBack B T.core = true) → Quiet s t T → SaveRoom s t T off →
      (∀ x ∈ s.teams, x.1 ≠ t → x.2.core = T.core → x.2.candidate s.now = none) →
      ∃ w, exec .waitmEvict s = .next w ∧ SavedOut s w t T off) ∧
    ∀ core L h, s.ev = .teamCore t core → s.launches.find? T.launch = some L → T.st = .out h → s.mayReturn T core = true →
      (∀ x ∈ s.teams, s.levelOf x.2 ≤ s.levelOf T) → (h = true ∨ ∀ G ∈ T.groups, G.2.pending = []) →
      ∃ w X, exec .readmit s = .next w ∧ w.teams.find? t = some X ∧ X.core = core ∧ X.st = (if h then .halted else .running) ∧
        X.pad = T.pad ∧ X.hearth = T.hearth ∧ w.mem = s.mem ∧ (w.core core).partition = L.partition ∧
        ∀ g G, T.groups.find? g = some G → ∃ H, X.groups.find? g = some H ∧ H.v = G.v ∧ H.s = G.s ∧ H.p = G.p ∧ H.q = G.q ∧ H.fr = G.fr

/-! ## Queues, launches, placement, contracts -/

/-- R259, R359, R368: a doorbell of the queue's own function reads the pull word: the producer index, or, with more packets than the ring
holds, a stop with code 9. Another function's doorbell, one of no queue and one of a stopped queue do nothing. R259 to R262, R272: taking a
packet numbers it, advances the consumer index and writes the read word. NOP and MARK are complete at once, MARK leaving value and time in
the trace slot; COPY and WAIT start, unless a fence holds them back; SIGNAL raises its word to the value; a CONTRACT binds, unbinds or is
refused with its code. -/
def Obligations.QueueService : Prop :=
  (∀ s : State, 8 ≤ s.pkg.stage → exec .doorbell s = .next s) ∧
  (∀ (s : State) (fn q : Nat), s.ev = .bell fn q →
    (s.queues.find? q = none → exec .doorbell s = .next s) ∧
    ∀ Q, s.queues.find? q = some Q → s.pkg.stage < 8 →
      (Q.vf ≠ fn ∨ Q.stopped = true → exec .doorbell s = .next s) ∧
      (∀ k, Q.vf = fn → Q.stopped = false → Q.miss = none → Q.pull.toNat % 4 = 0 → s.reads Q.space Q.pull.toNat k → s.poisoned k 4 = false →
        let p := s.nat k 4
        let n := (p + 2 ^ 32 - Q.cons) % 2 ^ 32
        (n ≤ 2 ^ Q.log2 → ∃ u P, exec .doorbell s = .next u ∧ u.queues.find? q = some P ∧ P.prod = p ∧ P.bell = false ∧ P.cons = Q.cons ∧
          P.items = Q.items ∧ P.stopped = false ∧ u.mem = s.mem) ∧
        (2 ^ Q.log2 < n → ∃ u P, exec .doorbell s = .next u ∧ u.queues.find? q = some P ∧ P.stopped = true ∧ P.status = 9 ∧
          P.cons = Q.cons ∧ P.prod = Q.prod))) ∧
  (∀ (s : State) (q type : Nat) (Q : Queue) (x : ECtx) (bs : List Byte) (kr : Nat), Taking s q Q x type bs kr → Q.items = [] →
    let read := natBytes 4 ((Q.cons + 1) % 2 ^ 32)
    let num := x.issued + 1
    let fence := fieldAt bs 1 1 == 1
    let dw (o : Nat) : Dword := BitVec.ofNat 64 (fieldAt bs o 8)
    let holds (u : State) (item : QItem) : Prop := ∃ P, u.queues.find? q = some P ∧ P.items = [item]
    (type = 0 → ∃ u, exec .nop s = .next u ∧ TakenOff u q Q x ∧ Stored s u kr read) ∧
    (type = 8 → (∀ z, s.ctxs.find? Q.space = some z → z.trace ≠ dw 8) →
      ∃ u P, exec .mark s = .next u ∧ TakenOff u q Q x ∧ Stored s u kr read ∧ u.queues.find? q = some P ∧ P.trace = dw 8 ∧
        P.traceTime = s.now / 18) ∧
    (type = 3 → (∀ z ∈ x.pend, z.num ≠ num) → ∃ u y o, exec .copy s = .next u ∧ TakenOff u q Q x ∧ Stored s u kr read ∧
      holds u ⟨num, fence, !fence, .copy⟩ ∧ u.ectxs.find? Q.ectx = some y ∧ y.pend = x.pend ++ [o] ∧ o.num = num ∧
      o.cmd = .copy (dw 8) (dw 16) (fieldAt bs 24 8) ∧ o.running = !fence) ∧
    (type = 5 → (fieldAt bs 24 1 = 1 → s.queueMayWait Q.space (fieldAt bs 8 3) = true) →
      ∃ u, exec .wait s = .next u ∧ TakenOff u q Q x ∧ Stored s u kr read ∧
        holds u ⟨num, fence, !fence, .wait (fieldAt bs 24 1 == 1) (dw 8) (dw 16)⟩) ∧
    (type = 4 →
      (fence = true → ∃ u, exec .signal s = .next u ∧ TakenOff u q Q x ∧ Stored s u kr read ∧
        holds u ⟨num, true, false, .signal (dw 8) (dw 16)⟩) ∧
      (fence = false → ∀ ka, (s.store kr read).writes Q.space (dw 8).toNat ka → (s.store kr read).poisoned ka 8 = false →
        ka + 8 ≤ kr ∨ kr + 4 ≤ ka →
        ∃ u, exec .signal s = .next u ∧ TakenOff u q Q x ∧ u.nat ka 8 = max (s.nat ka 8) (fieldAt bs 16 8) ∧
          u.nat kr 4 = (Q.cons + 1) % 2 ^ 32 ∧ ∀ a, ¬ (ka ≤ a ∧ a < ka + 8) → ¬ (kr ≤ a ∧ a < kr + 4) → memByte u.mem a = memByte s.mem a)) ∧
    (type = 7 →
      (fence = true → ∃ u, exec .contract s = .next u ∧ TakenOff u q Q x ∧ Stored s u kr read ∧ holds u ⟨num, true, false, .contract bs⟩) ∧
      (fence = false → ∀ ka, (s.store kr read).writes Q.space (fieldAt bs 40 8) ka → fieldAt bs 40 8 % 8 = 0 → ka + 8 ≤ kr ∨ kr + 4 ≤ ka →
        let k := contractFields bs
        let others := s.contracts.filter fun c => !(c.space == Q.space && c.cid == k.cid)
        let fit := sectorsFor others k.budget k.period
        let decided (code : Nat) (cs : List Contract → Prop) : Prop := ∃ u, exec .contract s = .next u ∧ TakenOff u q Q x ∧
          u.nat ka 8 = code ∧ cs u.contracts
        (k.period = 0 → decided 0 fun cs => cs = others) ∧
        (k.period ≠ 0 → fit.length < k.sectors → decided 5 fun cs => cs = s.contracts) ∧
        (k.period ≠ 0 → k.sectors ≤ fit.length →
          (18 * (k.deadline - k.budget) < stopTicks k.classes + 18 * 6000 → decided 6 fun cs => cs = s.contracts) ∧
          (stopTicks k.classes + 18 * 6000 ≤ 18 * (k.deadline - k.budget) → decided 0 fun cs => ∃ ss, ss.length = k.sectors ∧ ss.Nodup ∧
            (∀ x ∈ ss, x ∈ fit) ∧ cs = others ++
              [⟨Q.space, k.cid, k.classes, ss, k.period, k.budget, k.deadline, BitVec.ofNat 64 k.status, s.now, false, [], 0, none, false⟩])))))

/-- R263: a COND whose arms lie before the producer index takes them with it, compares its word and discards one arm: a discarded packet has
no effect when its turn comes but that it is numbered and complete. When a COND compares is log entry 36; arms that a queue reset has left
behind run on without the consumer index (log entry 61). R260, R262: an item whose turn has
come starts, a SIGNAL acting at once; a WAIT is over when its context's counter or its word has reached the value, and its packet is complete. -/
def Obligations.ConditionsAndWork : Prop :=
  (∀ (s : State) (q : Nat) (Q : Queue) (x : ECtx) (bs : List Byte) (kr kw : Nat) (at_ : Nat → Nat), Taking s q Q x 6 bs kr → Q.items = [] →
    let a := fieldAt bs 25 1
    let b := fieldAt bs 26 1
    a + b + 1 ≤ 2 ^ Q.log2 → a + b + 1 ≤ Q.avail →
    (∀ i < a + b, Q.slotAddr ((Q.cons + 1 + i) % 2 ^ 32) % 64 = 0 ∧ s.reads Q.space (Q.slotAddr ((Q.cons + 1 + i) % 2 ^ 32)) (at_ i) ∧
      s.poisoned (at_ i) 64 = false ∧ packetOk (s.bytes (at_ i) 64) = true ∧ fieldAt (s.bytes (at_ i) 64) 0 1 ≠ 6) →
    s.reads Q.space (fieldAt bs 8 8) kw → fieldAt bs 8 8 % 4 = 0 → s.poisoned kw 4 = false →
    let c := scmpCond (fieldAt bs 24 1) (BitVec.ofNat 32 (s.nat kw 4) &&& BitVec.ofNat 32 (fieldAt bs 16 4)) (BitVec.ofNat 32 (fieldAt bs 20 4))
    ∃ u P, exec .cond s = .next u ∧ TakenOff u q Q x ∧ Stored s u kr (natBytes 4 ((Q.cons + 1) % 2 ^ 32)) ∧ u.queues.find? q = some P ∧
      P.items = [] ∧ P.arm = (List.range (a + b)).map fun i => (if c then decide (a ≤ i) else decide (i < a), s.bytes (at_ i) 64)) ∧
  (∀ (s : State) (q kr : Nat) (Q : Queue) (x : ECtx) (bs : List Byte) (rest : List (Bool × List Byte)) (i : Instr) (type : Nat),
    s.ev = .queue q → s.queues.find? q = some Q → s.ectxs.find? Q.ectx = some x → Q.stopped = false → Q.miss = none → Q.stopAfter = none →
    Q.avail ≠ 0 ∨ Q.loose ≠ 0 → Q.items = [] → Q.read.toNat % 4 = 0 → s.writes Q.space Q.read.toNat kr → Q.arm = (true, bs) :: rest →
    packetOk bs = true → fieldAt bs 0 1 = type →
    (i, type) ∈ [(Instr.nop, 0), (.launch, 1), (.rlaunch, 2), (.copy, 3), (.signal, 4), (.wait, 5), (.contract, 7), (.mark, 8)] →
    let next := if Q.loose = 0 then (Q.cons + 1) % 2 ^ 32 else Q.cons
    ∃ u P y, exec i s = .next u ∧ Stored s u kr (natBytes 4 next) ∧ u.queues.find? q = some P ∧ P.cons = next ∧ P.loose = Q.loose - 1 ∧
      P.items = [] ∧ P.arm = rest ∧ P.trace = Q.trace ∧ u.ectxs.find? Q.ectx = some y ∧ y.issued = x.issued + 1 ∧
      u.launches = s.launches ∧ u.contracts = s.contracts) ∧
  (∀ (s : State) (q num : Nat) (Q : Queue) (i : QItem) (x : ECtx), s.ev = .qitem q num → s.queues.find? q = some Q →
    Q.items.find? (fun i => i.num == num) = some i → Q.miss = none → Q.stopAfter = none → s.ectxs.find? Q.ectx = some x → x.done = [] →
    num = x.counter + 1 →
    let begun (u : State) : Prop := ∃ P, u.queues.find? q = some P ∧
      P.items = Q.items.map fun y => if y.num = num then { y with started := true } else y
    let ended (u : State) : Prop := ∃ P y, u.queues.find? q = some P ∧ P.items = Q.items.filter (fun y => y.num != num) ∧
      u.ectxs.find? Q.ectx = some y ∧ y.counter = num
    (Q.mayStart i = true →
      (∀ id, i.act = .launch id → ∀ L, s.launches.find? id = some L →
        ∃ u, exec .packetStart s = .next u ∧ begun u ∧ u.launches.find? id = some { L with started := true } ∧ u.mem = s.mem) ∧
      (i.act = .copy → ∃ u, exec .packetStart s = .next u ∧ begun u ∧ u.mem = s.mem ∧
        ∀ o, x.pend.find? (fun o => o.num == num) = some o → u.eop? Q.ectx num = some { o with running := true, since := s.now }) ∧
      (∀ e a v, i.act = .wait e a v → ∃ u, exec .packetStart s = .next u ∧ begun u ∧ u.mem = s.mem) ∧
      (∀ a v k, i.act = .signal a v → s.writes Q.space a.toNat k → s.poisoned k 8 = false →
        ∃ u, exec .packetStart s = .next u ∧ ended u ∧ Stored s u k (natBytes 8 (max (s.nat k 8) v.toNat)))) ∧
    (i.started = true →
      (∀ c v, i.act = .wait true c v → s.futureDone c.toNat v.toNat = true →
        ∃ u, exec .waitSatisfied s = .next u ∧ ended u ∧ u.mem = s.mem) ∧
      (∀ a v k, i.act = .wait false a v → a.toNat % 8 = 0 → s.reads Q.space a.toNat k → s.poisoned k 8 = false → v.toNat ≤ s.nat k 8 →
        ∃ u, exec .waitSatisfied s = .next u ∧ ended u ∧ u.mem = s.mem)))

/-- R264, R265, R271: a LAUNCH or RLAUNCH packet: a descriptor that the checks of R265 pass makes a launch with its fields and an engine
context of its own, and status 0; any other is refused with its code, and its status word names an
engine context too (the model's reading, log entry 61). -/
def Obligations.LaunchPackets : Prop :=
  ∀ (s : State) (q type : Nat) (Q : Queue) (x : ECtx) (bs : List Byte) (kr kd kst : Nat), Taking s q Q x type bs kr → Q.items = [] →
    let id := (s.newCtx .launch Q.space).1
    id ≠ Q.ectx →
    let ds := s.bytes kd 256
    let num := x.issued + 1
    let status := fieldAt bs 16 8
    let L := parseLaunch Q.space q num (fieldAt bs 8 8) status ds
    let answer (n : Nat) : List Byte := natBytes 8 n
    fieldAt bs 8 8 % 256 = 0 → s.reads Q.space (fieldAt bs 8 8) kd → s.poisoned kd 256 = false → status % 8 = 0 → s.writes Q.space status kst →
    kst + 8 ≤ kr ∨ kr + 4 ≤ kst →
    (∀ n, (s.store kst (answer n)).writes Q.space Q.read.toNat kr) →
    let refused (i : Instr) (code : Nat) : Prop := ∃ u P, exec i s = .next u ∧ TakenOff u q Q x ∧ u.nat kst 8 = (code + id * 2 ^ 40) % 2 ^ 64 ∧ u.launches = s.launches ∧
      u.queues.find? q = some P ∧ P.items = []
    let accepted (i : Instr) (M : Launch) : Prop := ∃ u P, exec i s = .next u ∧ TakenOff u q Q x ∧ u.nat kst 8 = id * 2 ^ 40 % 2 ^ 64 ∧
      u.launches.find? id = some { M with started := fieldAt bs 1 1 != 1 } ∧ u.queues.find? q = some P ∧
      P.items = [⟨num, fieldAt bs 1 1 == 1, fieldAt bs 1 1 != 1, .launch id⟩]
    (type = 1 →
      (s.launchOk L ds = false → refused .launch 4) ∧
      (s.launchOk L ds = true → s.launchCode L ≠ 0 → refused .launch (s.launchCode L)) ∧
      (s.launchOk L ds = true → s.launchCode L = 0 → accepted .launch L)) ∧
    (type = 2 → ∀ kx r z, let rec' := fieldAt bs 24 8
      rec' % 256 = 0 → s.reads Q.space rec' kx → s.poisoned kx 128 = false → r = parseRec (s.bytes kx 128) →
      s.seqs.find? (seqKey Q.space rec') = some z → z.retiring = false →
      let M : Launch := { L with rope := some rec', view := r.view, dies := z.members, coop := true }
      (s.launchOk M ds = false → refused .rlaunch 4) ∧
      (s.launchOk M ds = true → s.launchCode M ≠ 0 → refused .rlaunch (s.launchCode M)) ∧
      (s.launchOk M ds = true → s.launchCode M = 0 → accepted .rlaunch M))

/-- R266, R268 to R271, R313: the next cluster of a launch takes a rectangle of cores: a team on each, with its groups at the kernel's entry,
and a message to the sector that will start it; a co-operative launch reserves its whole grid, and one message to each sector starts it. It
is a launch's turn, in particular, when no other waits. Placed teams start at the time that their message names, those of the
earliest in all sectors first; one that a debugger has halted starts halted. -/
def Obligations.Placement : Prop :=
  (∀ (s : State) (l sector x0 y0 : Nat) (L : Launch), s.ev = .place l sector x0 y0 → s.launches.find? l = some L → L.coop = false →
    s.rectFits L L.placed sector x0 y0 = true → (s.link sector).mayAsk = true →
    let placed : Prop := ∃ u M, exec .clusterPlace s = .next u ∧ u.launches.find? l = some M ∧ M.placed = L.placed + 1 ∧
      HoldsCluster s u M l L sector x0 y0 (l + 2 ^ 24 * (L.placed + 1)) ∧ u.link sector = (s.link sector).asked (l + 2 ^ 24 * (L.placed + 1))
    (s.launchTurn l L = true → placed) ∧
    (L.started = true → L.complete = false → L.placed < L.grid → 0 < L.width → 0 < L.height →
      (∀ o ∈ s.launches, o ≠ (l, L) → o.2.waits = false) → placed)) ∧
  (∀ (s : State) (l sector x0 y0 : Nat) (L : Launch), s.ev = .rects l [(sector, x0, y0)] → s.launches.find? l = some L → L.coop = true →
    L.grid = 1 → L.placed = 0 → L.started = true → L.complete = false → L.reserved = false → 0 < L.width → 0 < L.height →
    s.rectFits L 0 sector x0 y0 = true → (s.link sector).mayAsk = true → (∀ o ∈ s.launches, o ≠ (l, L) → o.2.waits = false) →
    ∃ u M, exec .coopReserve s = .next u ∧ u.launches.find? l = some M ∧ M.placed = 1 ∧ M.reserved = true ∧
      HoldsCluster s u M l L sector x0 y0 l ∧ u.link sector = (s.link sector).asked l) ∧
  (∀ (s w : State) (l : Nat) (rs : List (Nat × Nat × Nat)) (L : Launch), s.ev = .rects l rs → s.launches.find? l = some L →
    L.coop = true → rs.length = L.grid → s.launchTurn l L = true → (∀ r ∈ rs, (s.link r.1).mayAsk = true) →
    State.reserve l (s.serve L) rs = some w →
    ∃ u, exec .coopReserve s = .next u ∧ u.teams = w.teams ∧ u.mem = w.mem ∧ u.cores = w.cores ∧
      u.launches = w.launches.modify l (fun L => { L with reserved := true }) ∧ ∀ r ∈ rs, u.link r.1 = (s.link r.1).asked l) ∧
  ∀ (s : State) (l : Nat) (L : Launch), s.ev = .launch l → s.launches.find? l = some L →
    let ready (x : Nat × Cluster) : Prop := x ∈ L.clusters ∧ ∃ y ∈ s.teams, y.2.launch = l ∧ y.2.cix = x.1 ∧ y.2.st = .placed
    ((∃ x, ready x) → ∃ u, exec .teamStart s = .next u) ∧
    ∀ x, ready x → (∀ y, ready y → x.2.startAt ≤ y.2.startAt) →
      ∃ u, exec .teamStart s = .next u ∧ u.now = max s.now x.2.startAt ∧ u.mem = s.mem ∧
        ∀ t T, s.teams.find? t = some T →
          let due : Prop := T.launch = l ∧ T.st = .placed ∧ ∃ y, ready y ∧ y.1 = T.cix ∧ y.2.startAt = x.2.startAt
          (¬ due → u.teams.find? t = some T) ∧
          (due → T.debug = false → u.teams.find? t = some { T with st := .running }) ∧
          (due → T.debug = true → ∃ X, u.teams.find? t = some X ∧ X.st = .halted ∧
            ∀ g G, T.groups.find? g = some G → X.groups.find? g = some G.freeze)

/-- R200, R273, R306: a contract's period begins behind its deadline, core time counting from the moment it begins; a contract that has had more
core time than its budget on a sector drops its launches' class; at its deadline the teams still running are added to its count in memory, with
what has waited for a miss there; a view commit
with no step open writes the new width and view number, and takes the roped launches that wait again under the new view (R271); one with steps
open first holds new begins. -/
def Obligations.ContractsAndViews : Prop :=
  (∀ (s : State) (space cid : Nat) (c : Contract), s.ev = .contract space cid → s.contract? space cid = some c →
    (c.judged = true → let t := c.began + 18 * c.period
      ∃ u ran, exec .contractPeriod s = .next u ∧ u.contract? space cid = some { c with began := t, judged := false, used := ran } ∧
      (∀ x, SMap.find? ran x = if t < s.now ∧ x ∈ c.sectors ∧ s.runsFor c x = true then some (s.now - t) else none) ∧
      u.now = max s.now t ∧ u.mem = s.mem ∧
      ∀ l L, s.launches.find? l = some L → u.launches.find? l = some (if L.under space cid then { L with spent := false } else L)) ∧
    (∀ l L, s.launches.find? l = some L → L.under space cid = true → L.spent = false → L.complete = false → 0 < L.placed →
      (∃ x ∈ c.used, 18 * c.budget < x.2) →
      ∃ u, exec .contractBudget s = .next u ∧ u.launches.find? l = some { L with spent := true } ∧ u.mem = s.mem ∧ u.teams = s.teams) ∧
    (∀ k, c.miss = none → s.reads space (c.status.toNat + 8) k → s.writes space (c.status.toNat + 8) k → c.status.toNat % 8 = 0 →
      s.poisoned k 4 = false →
      let late := (s.teams.filter fun t => t.2.st != .retired && t.2.st != .placed &&
        match s.launches.find? t.2.launch with | some L => L.under space cid | none => false).length
      let n := c.owed + if c.judged then 0 else late
      let told (now : Nat) : Prop := ∃ u, exec .contractDeadline s = .next u ∧ u.now = now ∧
        (n = 0 → u.contract? space cid = some { c with judged := true } ∧ u.mem = s.mem) ∧
        (n ≠ 0 → u.contract? space cid = some { c with judged := true, owed := 0, miss := none, declined := false } ∧
          Stored s u k (wordBytes (BitVec.ofNat 32 (s.nat k 4 + n))))
      (c.judged = false → told (max s.now (c.began + 18 * c.deadline))) ∧ (c.judged = true → c.owed ≠ 0 → told s.now))) ∧
  ∀ (s : State) (space rec k : Nat) (r : Rec) (q : Seq), s.ev = .view space rec → s.seqs.find? (seqKey space rec) = some q →
    rec % 256 = 0 → s.reads space rec k → s.poisoned k 128 = false → r = parseRec (s.bytes k 128) → q.miss = none →
    let w := s.commitWidth space r q
    w ≠ r.w →
    (q.steps ≠ [] → q.commit = false → ∃ u, exec .viewCommit s = .next u ∧ u.mem = s.mem ∧
      u.seqs.find? (seqKey space rec) = some { q with commit := true }) ∧
    let held (L : Launch) : Prop := L.space = space ∧ L.rope = some rec ∧ L.reserved = false ∧ L.complete = false
    (q.steps = [] → s.launches.sorted = true →
      ∀ k8 k16, s.writes space (rec + 8) k8 → (s.store k8 (natBytes 1 w)).writes space (rec + 16) k16 → k8 + 8 = k16 →
      ∃ u z, exec .viewCommit s = .next u ∧ u.seqs.find? (seqKey space rec) = some z ∧
        let anew (L : Launch) : Launch := { L with dies := z.members, view := r.view + 1 }
        z.commit = false ∧ z.target = 0 ∧ z.steps = [] ∧
        (w ≤ q.members.length → z.members = q.members.take w) ∧ (q.members.length ≤ w → ∃ new, z.members = q.members ++ new) ∧
        ((∀ x ∈ s.launches, held x.2 → s.launchCode (anew x.2) = 0) → u.nat k8 1 = w % 256 ∧ u.nat k16 8 = (r.view + 1) % 2 ^ 64 ∧
          (∀ l L, s.launches.find? l = some L →
            (held L → u.launches.find? l = some (anew L)) ∧ (¬ held L → u.launches.find? l = some L)) ∧
          ∀ a, a ≠ k8 → ¬ (k16 ≤ a ∧ a < k16 + 8) → memByte u.mem a = memByte s.mem a))

/-! ## The package and its host -/

/-- R315 to R319, R229, R230, R237, R258, R290, R368: the admin ring is served when its doorbell is written, and the commands that bind
contexts, set queues, answer misses and set the operator's policies; in recovery the doorbell does nothing until the image runs (R329). A command
that may not be done yet completes with status 3.
The indices of a queue set first are the model's choice (log entry 37), and which fields BIND checks its reading (log entry 41). -/
def Obligations.AdminCommands : Prop :=
  (∀ s : State, (s.pkg.stage = 8 ∨ s.pkg.stage = 9 → exec .adminDoorbell s = .next s) ∧
    (s.pkg.stage ≠ 8 → s.pkg.stage ≠ 9 → s.pkg.served = false →
      exec .adminDoorbell s = .next { s with pkg := { s.pkg with adminBell := true } }) ∧
    (s.pkg.stage ≠ 8 → s.pkg.stage ≠ 9 → s.pkg.served = true → 6 ≤ s.pkg.adminLog2 → s.pkg.adminLog2 ≤ 16 →
      let p := s.pkg
      let n := (s.nat (hostKey + p.adminPull.toNat) 4 + 2 ^ 32 - p.adminCons) % 2 ^ 32
      (2 ^ p.adminLog2 < n → exec .adminDoorbell s = .next { s with pkg := { p with adminBell := false } }) ∧
      (n = 1 → (∀ x ∈ p.cmds, p.refusesNow x = none ∧ x.num ≠ p.adminCons) →
        let bs := s.bytes (hostKey + p.adminBase.toNat + 64 * (p.adminCons % 2 ^ p.adminLog2)) 64
        let next := (p.adminCons + 1) % 2 ^ 32
        let c : AdminCmd := ⟨p.adminCons, bs, fieldAt bs 1 1 % 2 == 1, false, false, none⟩
        let taken := s.store (hostKey + p.adminRead.toNat) (natBytes 4 next)
        (p.refusesNow c = none → exec .adminDoorbell s =
          .next { taken with pkg := { p with adminBell := false, adminCons := next, cmds := p.cmds ++ [c] } }) ∧
        (∀ status, p.refusesNow c = some status → (∀ x ∈ p.cmds, x.began = true) → (c.fence = true → p.cmds = []) →
          exec .adminDoorbell s = .next { taken.store (hostKey + c.f 48 8) (natBytes 4 status ++ natBytes 4 0) with
            pkg := { p with adminBell := false, adminCons := next, msix := p.msix ++ [0] } })))) ∧
  (∀ (p : Pkg) (c : AdminCmd), (operandsOf c.code = none → p.refusesNow c = some 1) ∧
    (c.formed = true → c.code ∈ [0x10, 0x11, 0x12] → c.began = false → (∃ x ∈ p.cmds, x.code ∈ [0x10, 0x11, 0x12] ∧ x.began = true) →
      p.refusesNow c = some 3)) ∧
  ∀ (s : State) (c : AdminCmd), let sp := c.f 8 2
    (AtCommand s 0x01 c false → c.f 8 8 % 256 = 0 → c.f 8 8 < hbmBytes → c.f 16 1 < 64 →
      let d := s.bytes (c.f 8 8) 256
      let root (i : Nat) : Nat := fieldAt d (8 * i) 8
      root 2 = 0 → root 3 = 0 → rootOk (root 0) = true → rootOk (root 1) = true → s.ctxs.find? (fieldAt d 52 2) = none →
      ∃ x : Ctx, x.roots = [root 0, root 1, 0, 0] ∧ x.handler = BitVec.ofNat 64 (fieldAt d 32 8) ∧ x.ring = BitVec.ofNat 64 (fieldAt d 40 8) ∧
        x.entries = fieldAt d 48 4 ∧ x.vf = c.f 16 1 ∧ x.fatal = false ∧ x.pool0 = [] ∧ x.pool1 = [] ∧
        Finishes .bind s c 0 0 { s with ctxs := s.ctxs.insert (fieldAt d 52 2) x }) ∧
    (AtCommand s 0x02 c false → ∀ x, s.ctxs.find? sp = some x →
      ((∀ t ∈ s.teams, t.2.space = sp → t.2.st = .retired) → (∀ q ∈ s.queues, q.2.space ≠ sp) → (∀ q ∈ s.seqs, q.1 / 2 ^ 64 ≠ sp) →
        Finishes .unbind s c 0 0 { s with ctxs := s.ctxs.erase sp }) ∧
      ((∃ t ∈ s.teams, t.2.space = sp ∧ t.2.st ≠ .retired) ∨ (∃ q ∈ s.queues, q.2.space = sp) → Finishes .unbind s c 3 0 s)) ∧
    (AtCommand s 0x03 c false → c.f 8 4 < 32768 → 6 ≤ c.f 12 1 → c.f 12 1 ≤ 16 → c.f 13 1 ≤ 4 → c.f 16 8 % 4096 = 0 → c.f 24 8 % 4 = 0 →
      c.f 32 8 % 4 = 0 → ∀ x, s.ctxs.find? (c.f 14 2) = some x →
      let same (P : Queue) : Prop := P.vf = x.vf ∧ P.space = c.f 14 2 ∧ P.ring = BitVec.ofNat 64 (c.f 16 8) ∧ P.log2 = c.f 12 1 ∧
        P.pull = BitVec.ofNat 64 (c.f 24 8) ∧ P.read = BitVec.ofNat 64 (c.f 32 8) ∧ P.realtime = (c.f 13 1 == 4)
      (s.queues.find? (c.f 8 4) = none → ∃ w P, Finishes .queueSet s c 0 0 w ∧ w.queues.find? (c.f 8 4) = some P ∧ same P ∧ P.cons = 0 ∧
        P.prod = 0 ∧ P.stopped = false ∧ P.items = [] ∧ P.ectx = (s.newCtx (.queue (c.f 8 4)) (c.f 14 2)).1 ∧
        w.ectxs.find? P.ectx = some ⟨.queue (c.f 8 4), c.f 14 2, 0, 0, [], [], []⟩) ∧
      ∀ Q, s.queues.find? (c.f 8 4) = some Q →
        (Q.items ≠ [] → Finishes .queueSet s c 3 0 s) ∧
        (Q.items = [] → ∃ w P, Finishes .queueSet s c 0 0 w ∧ w.queues.find? (c.f 8 4) = some P ∧ same P ∧ P.cons = Q.cons ∧
          P.ectx = Q.ectx ∧ w.mem = s.mem)) ∧
    (AtCommand s 0x04 c false → c.f 8 4 < 32768 → ∀ Q k, s.queues.find? (c.f 8 4) = some Q → Q.pull.toNat % 4 = 0 →
      s.reads Q.space Q.pull.toNat k → s.poisoned k 4 = false →
      ∃ w P, Finishes .queueReset s c 0 (s.nat k 4) w ∧ w.queues.find? (c.f 8 4) = some P ∧ P.cons = s.nat k 4 ∧ P.prod = s.nat k 4 ∧
        P.stopped = false ∧ P.status = 0 ∧ P.items = Q.items ∧ P.arm = Q.arm ∧ P.loose = Q.arm.length) ∧
    (AtCommand s 0x06 c false → c.f 16 1 ≤ 2 →
      (s.parked.find? (c.f 8 8) = none → Finishes .faultReply s c 2 0 s) ∧
      ∀ p, s.parked.find? (c.f 8 8) = some p → c.f 8 8 < s.nextToken →
        ∃ w, Finishes .faultReply s c 0 0 w ∧ w.parked.find? (c.f 8 8) = none ∧
          (∀ x, s.ctxs.find? p.space = some x →
            w.ctxs.find? p.space = some (if c.f 16 1 = 2 then { x with fatal := true } else x)) ∧
          ∀ t g i G e, WalkRef.split t g i ∈ p.refs → s.group? t g = some G → G.splits.find? i = some e → e.wait = .walk (c.f 8 8) →
            e.st = .blocked → ∃ H y, w.group? t g = some H ∧ H.splits.find? i = some y ∧ y.st = .ready ∧ y.pc = e.pc ∧ y.mask = e.mask ∧
              y.wait = (if c.f 16 1 = 0 then .none else .declined)) ∧
    (AtCommand s 0x07 c false → c.f 8 1 < 64 → c.f 16 8 % 65536 = 0 → c.f 24 8 % 65536 = 0 → c.f 16 8 + c.f 24 8 ≤ hbmBytes →
      let out (t : Nat × Team) : Prop := (∃ h, t.2.st = .out h) ∧ s.vfOf t.2.space = c.f 8 1
      ((∀ t ∈ s.teams, ¬ out t) → Finishes .savePool s c 0 0
        { s with pkg := { s.pkg with savePools := s.pkg.savePools.insert (c.f 8 1) (c.f 16 8, c.f 24 8) } }) ∧
      ((∃ t ∈ s.teams, out t) → Finishes .savePool s c 3 0 s)) ∧
    (AtCommand s 0x0B c false → 1 ≤ c.f 10 1 → c.f 10 1 ≤ 8 → 2 ≤ c.f 11 1 → c.f 11 1 ≤ 16 → ∀ x, s.ctxs.find? sp = some x →
      Finishes .policy s c 0 0 { s with ctxs := s.ctxs.modify sp fun x => { x with policy := ⟨c.f 10 1, c.f 11 1, c.f 12 4⟩ } }) ∧
    (AtCommand s 0x0C c false → c.f 9 1 ≤ 8 →
      let used := s.tails.map Prod.fst ++ s.gatheredTails
      ((∀ t ∈ used, fld (c.f 8 1) (t / 4096) 1 = 0) → ∃ w, Finishes .tailShare s c 0 0 w ∧
        w = { s with pkg := { s.pkg with shares := w.pkg.shares } } ∧
        ∀ d < 8, w.pkg.shares.getD d 0 = if fld (c.f 8 1) d 1 = 1 then c.f 9 1 else s.pkg.shares.getD d 0) ∧
      ((∃ t ∈ used, t / 4096 < 8 ∧ fld (c.f 8 1) (t / 4096) 1 = 1) → Finishes .tailShare s c 3 0 s)) ∧
    (AtCommand s 0x0D c false → c.f 10 1 ≤ 1 → ∀ x, s.ctxs.find? sp = some x →
      Finishes .snapArm s c 0 0 { s with ctxs := List.map (fun y => (y.1,
        if y.1 = sp then { y.2 with armed := c.f 10 1 == 1, trace := BitVec.ofNat 64 (c.f 16 8) }
        else { y.2 with armed := y.2.armed && c.f 10 1 != 1 })) s.ctxs })

/-- R229, R235, R242, R296, R320: a table entry is written once every access agrees with it, and a page that changes owner is zeroed; blocks
join a pool zeroed; a record without steps or operations is retired; a block moves to the second tier.
Which free block DEMOTE takes is the model's choice (log entry 23). -/
def Obligations.MemoryCommands : Prop :=
  ∀ (s : State) (c : AdminCmd), let sp := c.f 8 2
    (AtCommand s 0x05 c false → 1 ≤ c.f 10 1 → c.f 10 1 ≤ 3 → c.f 16 8 % 8 = 0 → c.f 16 8 < hbmBytes → entryOk (c.f 10 1) (c.f 24 8) = true →
      (s.ctxs.find? sp).isSome → (∀ x ∈ s.pkg.cmds, x ≠ c → x.code ≠ 0x05 ∨ x.f 8 2 ≠ sp) →
      let e := c.f 24 8
      s.agrees (s.writeEntry sp (c.f 10 1) (c.f 16 8) e) = true →
      ∃ w, Finishes .tableUpdate s c 0 0 w ∧ w.nat (c.f 16 8) 8 = e ∧
        ∀ k, fld e 0 1 = 1 → fld e 1 1 = 1 → fld e 52 4 ≠ 2 → s.frameKey (fld e 52 4) (fld e 16 36 * 65536) = some k →
          let n := if c.f 10 1 = 2 then 8192 else 1
          (∀ o ∈ s.owners, k / 65536 ≤ o.1 → o.1 < k / 65536 + n → o.2 ≠ sp) →
          ∀ a, ¬ (c.f 16 8 ≤ a ∧ a < c.f 16 8 + 8) →
            memByte w.mem a = if k ≤ a ∧ a < k + 65536 * n then 0 else memByte s.mem a) ∧
    (AtCommand s 0x08 c false → c.f 10 1 ≤ 1 →
      let tier := c.f 10 1
      let first := c.f 12 4
      let n := c.f 16 4
      let base := if tier = 0 then 0 else tierOneKey
      (s.tierBlocks tier < first + n → Finishes .blockPool s c 1 0 s) ∧
      (first + n ≤ s.tierBlocks tier → ∀ x, s.ctxs.find? sp = some x →
        ∃ w y, Finishes .blockPool s c 0 n w ∧ w.ctxs.find? sp = some y ∧
          (∀ b, b ∈ y.pool tier ↔ b ∈ x.pool tier ∨ first ≤ b ∧ b < first + n) ∧
          (∀ i < n, w.owners.find? (base / 65536 + first + i) = some sp) ∧
          ∀ a, memByte w.mem a =
            if base + first * 65536 ≤ a ∧ a < base + first * 65536 + n * 65536 then 0 else memByte s.mem a)) ∧
    (AtCommand s 0x09 c false → c.f 16 8 % 256 = 0 → (s.ctxs.find? sp).isSome → ∀ q, s.seqs.find? (seqKey sp (c.f 16 8)) = some q →
      let runs := s.recordBusy sp (c.f 16 8)
      (q.steps = [] → runs = false → ∃ w, Finishes .sequenceRetire s c 0 0 w ∧ w.seqs.find? (seqKey sp (c.f 16 8)) = none ∧
        ∀ die n, q.tail = .slot die n → SMap.find? w.tails (tailKey die n) = none) ∧
      (q.steps ≠ [] ∨ runs = true → ∃ u, exec .sequenceRetire s = .next u ∧ u.mem = s.mem ∧
        u.seqs.find? (seqKey sp (c.f 16 8)) = some { q with retiring := true })) ∧
    (AtCommand s 0x0A c false → c.f 16 8 % 256 = 0 → ∀ q x k ke b b' src dst, s.seqs.find? (seqKey sp (c.f 16 8)) = some q →
      q.retiring = false → s.ctxs.find? sp = some x → s.reads sp (c.f 16 8) k → s.poisoned k 128 = false →
      let r := parseRec (s.bytes k 128)
      let va := r.btab + 4 * c.f 24 4
      c.f 24 4 < r.length → va % 4 = 0 → s.reads sp va ke → s.writes sp va ke → s.poisoned ke 4 = false →
      b < 2 ^ 28 → s.nat ke 4 = 2 * 2 ^ 30 + b → SMap.getD x.pins b 0 = 0 → x.pool1.head? = some b' → b' < 2 ^ 28 →
      s.frameKey 0 (b * 65536) = some src → s.frameKey 1 (b' * 65536) = some dst →
      ¬ (src < ke + 4 ∧ ke < src + 65536) → ¬ (dst < ke + 4 ∧ ke < dst + 65536) →
      ∃ w y, exec .demote s = .next w ∧ w.bytes dst 65536 = s.bytes src 65536 ∧ w.nat ke 4 = 2 * 2 ^ 30 + 2 ^ 28 + b' ∧
        w.ctxs.find? sp = some y ∧ b' ∉ y.pool1 ∧ SMap.getD y.refs (2 ^ 32 + b') 0 = 1 ∧ SMap.getD y.refs b 0 = SMap.getD x.refs b 0 - 1 ∧
        w.pkg.cmds = s.pkg.cmds.map fun z => if z.num = c.num then { z with moved := some (b, b'), began := true } else z) ∧
    ∀ x b b', AtCommand s 0x0A c true → c.f 16 8 % 256 = 0 → s.ctxs.find? sp = some x → c.moved = some (b, b') → b ∉ x.release →
      Finishes .demote s c 0 b' s

/-- R280, R285, R286, R313, R321: PRE-EMPT saves a launch's resident teams, without room it answers 5; DEBUG halts every team, wherever it is, or
resumes them. The counts and the save pool are log entries 51 and 32. -/
def Obligations.TeamCommands : Prop :=
  ∀ (s : State) (c : AdminCmd) (began : Bool) (L : Launch), s.launches.find? (c.f 16 3) = some L → L.space = c.f 8 2 →
    (s.ctxs.find? (c.f 8 2)).isSome →
    let id := c.f 16 3
    let saved (T : Team) : Bool := T.launch == id && T.resident && T.cause.isNone && !T.over
    (AtCommand s 0x0E c began →
      ((∀ t ∈ s.teams, saved t.2 = false) → Finishes .preEmpt s c 0 0 s) ∧
      ∀ t T, (s.teams.filter fun t => saved t.2) = [(t, T)] → s.teams.find? t = some T → Quiet s t T →
        (∀ off, SaveRoom s t T off → ∃ w, Finishes .preEmpt s c 0 1 w ∧ SavedOut s w t T off) ∧
        (s.saveRoom (s.vfOf T.space) (s.recordSize t T) = none → Finishes .preEmpt s c 5 0 s)) ∧
    (AtCommand s 0x0F c began → let live (T : Team) : Prop := T.launch = id ∧ T.st ≠ .retired ∧ T.cause = none ∧ T.over = false
      (c.f 10 1 = 0 → began = false → (∀ t ∈ s.teams, ¬ live t.2) → Finishes .debug s c 0 0 s) ∧
      (c.f 10 1 = 0 → began = false → ∀ t T, s.teams.find? t = some T → live T → T.debug = false →
        ∃ u X, exec .debug s = .next u ∧ u.teams.find? t = some X ∧ X.debug = true ∧ X.pad = T.pad ∧
          (T.st = .running → X.st = .halting 32 ∧ ∀ x ∈ s.pkg.cmds, x.num = c.num → { x with began := true } ∈ u.pkg.cmds) ∧
          (T.st = .out false → X.st = .out true) ∧ (T.st ≠ .running → T.st ≠ .out false → X.st = T.st)) ∧
      (c.f 10 1 = 0 → began = true → (∀ t ∈ s.teams, t.2.launch = id → t.2.debug = true → t.2.st.isHalting = false) →
        Finishes .debug s c 0 (s.teamsOf id Team.debug).length s) ∧
      (c.f 10 1 = 1 → began = false → (∀ t ∈ s.teams, t.2.launch = id → t.2.debug = true → t.2.st.isHalting = false) →
        ∃ w, Finishes .debug s c 0 (s.teamsOf id Team.debug).length w ∧ w.mem = s.mem ∧
        ∀ t T, s.teams.find? t = some T → live T → T.debug = true → T.st = .halted → T.faulting = none →
          (∀ G ∈ T.groups, G.2.saved = none ∧ G.2.pending = [] ∧ G.2.held = []) → (∀ x ∈ s.teams, x.1 = t → x.2 = T) →
          ∃ X, w.teams.find? t = some X ∧ X.st = .running ∧ X.debug = false ∧
            ∀ g G, T.groups.find? g = some G → X.groups.find? g = some { G.thaw with sibling := false }) ∧
      (c.f 10 1 = 1 → began = false → (∀ t ∈ s.teams, t.2.launch = id → t.2.debug = true → t.2.st.isHalting = false) →
        ∀ t T, s.teams.find? t = some T → live T → T.debug = true → T.st = .out true → T.faulting = none →
          (∀ x ∈ s.teams, x.1 = t → x.2 = T) →
          ∃ u X, exec .debug s = .next u ∧ u.teams.find? t = some X ∧ X.st = .out false ∧ X.debug = false ∧
            ∀ g G, T.groups.find? g = some G → X.groups.find? g = some { G.thaw with sibling := false }))

/-- R325 to R327, R330 to R332: an image is verified, erased and programmed; a marker is erased and programmed; the fuses take the running
version; the report and the certificate are written.
That the two flash commands take two steps is the model's choice (log entry 43); signature, certificate and serial number are opaque (log entry 13). -/
def Obligations.FirmwareCommands : Prop :=
  ∀ (s : State) (c : AdminCmd), (∀ x ∈ s.pkg.cmds, x ≠ c → x.firmware = false) →
    let begins (i : Instr) (w : State) : Prop := exec i s = .next { w with
      pkg := { w.pkg with cmds := s.pkg.cmds.map fun x => if x.num = c.num then { x with began := true } else x } }
    let other := 1 - s.pkg.slot
    let blankAt (p : Pkg) (a n : Nat) : Prop := ∀ i < n, p.flash.getD (a + i) 0xFF = 0xFF
    (AtCommand s 0x10 c false →
      let img := s.bytes (hostKey + c.f 8 8) (c.f 16 4)
      (verifyImage s.pkg.rootKey img (areaBytes - 256) s.pkg.fuses = 1 → ∃ w, begins .fwWrite w ∧ w.pkg.image = img ∧ w.mem = s.mem ∧
        blankAt w.pkg (slotBytes * other) areaBytes ∧
        ∀ a, ¬ (slotBytes * other ≤ a ∧ a < slotBytes * other + areaBytes) → w.pkg.flash.getD a 0xFF = s.pkg.flash.getD a 0xFF) ∧
      (verifyImage s.pkg.rootKey img (areaBytes - 256) s.pkg.fuses ≠ 1 → Finishes .fwWrite s c 4 0 s)) ∧
    (AtCommand s 0x10 c true →
      let img := s.pkg.image.take (256 + bodyLength s.pkg.image)
      blankAt s.pkg (slotBytes * other) img.length → ∃ w, Finishes .fwWrite s c 0 other w ∧ w.mem = s.mem ∧
        w.pkg.flashBytes (slotBytes * other) img.length = img ∧ other ∉ w.pkg.badSlots) ∧
    (AtCommand s 0x11 c false → c.f 8 1 ≤ 1 →
      let seq := (s.pkg.bestMarker.map Marker.seq).getD 0
      let at_ := slotBytes * s.pkg.markerTarget + areaBytes
      (s.pkg.verifySlot [] (c.f 8 1) ≠ 1 → Finishes .fwActivate s c 4 0 s) ∧
      (s.pkg.verifySlot [] (c.f 8 1) = 1 → 0xFFFFFFFF ≤ seq + 1 → Finishes .fwActivate s c 5 0 s) ∧
      (s.pkg.verifySlot [] (c.f 8 1) = 1 → seq + 1 < 0xFFFFFFFF → ∃ w, begins .fwActivate w ∧ w.mem = s.mem ∧ blankAt w.pkg at_ 65536 ∧
        ∀ a, ¬ (at_ ≤ a ∧ a < at_ + 65536) → w.pkg.flash.getD a 0xFF = s.pkg.flash.getD a 0xFF)) ∧
    (AtCommand s 0x11 c true → c.f 8 1 ≤ 1 →
      let seq := (s.pkg.bestMarker.map Marker.seq).getD 0 + 1
      let at_ := slotBytes * s.pkg.markerTarget + areaBytes
      blankAt s.pkg at_ 64 → seq < 2 ^ 32 →
      let h : List Byte := [0x53, 0x4C, 0x4F, 0x54] ++ natBytes 4 seq ++ natBytes 4 (c.f 8 1)
      ∃ w, Finishes .fwActivate s c 0 seq w ∧ w.mem = s.mem ∧
        w.pkg.flashBytes at_ 64 = h ++ natBytes 4 (crc32 h) ++ List.replicate 44 0xFF ++ List.replicate 4 0x5A) ∧
    (AtCommand s 0x12 c false →
      Finishes .svnCommit s c 0 (max s.pkg.fuses s.pkg.svn) { s with pkg := { s.pkg with fuses := max s.pkg.fuses s.pkg.svn } }) ∧
    (AtCommand s 0x13 c false → c.f 8 8 % 256 = 0 →
      let p := s.pkg
      let body : List Byte := [0x41, 0x54, 0x54, 0x52] ++ natBytes 4 1 ++ natBytes 8 Config.serial.toNat ++ (c.bytes.drop 16).take 32 ++ p.m0 ++
        natBytes 4 p.svn ++ natBytes 4 p.fuses ++ wordBytes s.bootStatus ++ natBytes 4 0 ++ p.m1 ++ natBytes 8 (s.now / 18) ++
        List.replicate 56 0
      Finishes .attest s c 0 0 (s.store (hostKey + c.f 8 8) (body ++ (List.range 64).map fun i => (Config.sign body).getD i 0))) ∧
    (AtCommand s 0x14 c false →
      let cert := Config.certificate.take 2048
      Finishes .identity s c 0 cert.length (s.store (hostKey + c.f 8 8) (cert ++ List.replicate (2048 - cert.length) 0)))

/-- R11, R327 to R329, R360, R364, R365: package reset finds the slot that the markers name, else the other, else waits in recovery; the image that
passed is loaded, then it brings the package up or says which step failed; recovery verifies the window, and runs it or waits again; power
goes off; the caps.
That failed slots are forgotten, that the second tier is cleared and that a cap out of range is dropped are log entries 42, 45 and 44. -/
def Obligations.PackageEvents : Prop :=
  (∀ (s : State) (ok : Bool) (step which : Nat) (unread : List Nat) (cxl : SMap Nat) (untrained : List Nat) (strap : Bool),
    s.ev = .reset ok step which unread cxl untrained strap → (ok = true ∨ 1 ≤ step ∧ step ≤ 3) → cxl.sorted = true → (∀ c ∈ cxl, c.1 < 10) →
    let good (k : Nat) : Prop := ({ s.pkg with badSlots := [] } : Pkg).verifySlot unread k = 1
    let first := (s.pkg.bestMarker.map Marker.slot).getD 0
    let common (u : State) : Prop := u.teams = [] ∧ u.ctxs = [] ∧ u.queues = [] ∧ u.now = 0 ∧ u.pkg.powered = true ∧ u.pkg.cmds = [] ∧
      u.pkg.flash = s.pkg.flash ∧ u.pkg.fuses = s.pkg.fuses ∧ u.pkg.bifurcated = strap ∧
      ∀ a, memByte u.mem a = if hostKey ≤ a then memByte s.mem a else 0
    let boots (k : Nat) (fallback : Bool) : Prop := ∃ u, exec .packageReset s = .next u ∧ common u ∧ u.pkg.slot = k ∧
      u.pkg.fallback = fallback ∧ u.pkg.m0 = imageDigest (s.pkg.slotImage k) ∧ u.pkg.svn = imageVersion (s.pkg.slotImage k) ∧
      u.pkg.m1 = List.replicate 32 0 ∧ u.pkg.stage = 1 ∧ u.pkg.loading = some ⟨ok, step, which, cxl, untrained⟩
    (good first → boots first false) ∧
    (¬ good first → good (1 - first) → boots (1 - first) true) ∧
    (¬ good first → ¬ good (1 - first) → ∃ u, exec .packageReset s = .next u ∧ common u ∧ u.pkg.stage = 8)) ∧
  ∀ s : State,
    (s.pkg.stage = 1 → s.settleBoot 1 = { s with pkg := { s.pkg with stage := 2 } }) ∧
    (∀ b, s.pkg.stage = 2 → s.pkg.loading = some b → let u := s.settleBoot 2
      u.mem = s.mem ∧ u.teams = s.teams ∧ u.pkg.loading = none ∧
      (b.ok = true → u.pkg.stage = 3 ∧ u.pkg.cxl = b.cxl ∧ u.pkg.cxlFailed = b.untrained ∧ ∀ i < 18, (u.port i).st = .training 0 false) ∧
      (b.ok = false → u.pkg.stage = 2 ∧ u.pkg.bringUp = BitVec.ofNat 32 (b.step + 256 * b.which))) ∧
    (s.pkg.stage = 8 → exec .recoveryGo s = .next { s with pkg := { s.pkg with stage := 9, recGo := true } }) ∧
    (s.pkg.stage = 9 → let img := s.pkg.window
      let v := verifyImage s.pkg.rootKey img (2 ^ 26 - 256) s.pkg.fuses
      (v = 1 → s.settleBoot 9 = { s with pkg := { s.pkg with
        stage := 10, m0 := imageDigest img, svn := imageVersion img, m1 := List.replicate 32 0 } }) ∧
      (v ≠ 1 → s.settleBoot 9 = { s with pkg := { s.pkg with stage := 8, verdict0 := v, recGo := false } })) ∧
    (let off (i : Instr) (heat : Nat) : Prop :=
        ∃ u, exec i s = .next u ∧ u.pkg.powered = false ∧ u.teams = [] ∧ u.ctxs = [] ∧
        u.pkg.flash = s.pkg.flash ∧ u.pkg.fuses = s.pkg.fuses ∧ u.pkg.sensor = heat ∧
        ∀ a, memByte u.mem a = if hostKey ≤ a then memByte s.mem a else 0;
      off Instr.powerOff s.pkg.sensor ∧ ∀ t, s.ev = .value t → 1050 ≤ t → off Instr.thermalShutdown t) ∧
    (∀ v, s.ev = .reg 0x20 v → s.pkg.stage < 8 →
      (2000 ≤ v.toNat → v.toNat ≤ 5200 → exec .powerCap s = .next { s with pkg := { s.pkg with powerCap := v } }) ∧
      (v.toNat < 2000 ∨ 5200 < v.toNat → exec .powerCap s = .next s)) ∧
    ∀ t, s.ev = .value t →
      (950 < t → t < 1050 → ∃ u, exec .thermalCap s = .next u ∧ u.effectiveCap.toNat % 65536 = 2000 ∧ u.pkg.powerCap = s.pkg.powerCap ∧
        u.pkg.msix = s.pkg.msix ++ [2] ∧ u.pkg.hotAt = s.now ∧ u.mem = s.mem ∧ u.teams = s.teams) ∧
      (t < 850 → s.pkg.thermal = true → ∃ u, exec .thermalCapRelease s = .next u ∧ u.effectiveCap = s.pkg.powerCap &&& 0xFFFF ∧
        u.now = max s.now (s.pkg.hotAt + 18 * 10 ^ 9) ∧ u.mem = s.mem ∧ u.teams = s.teams)

/-- R290, R335, R336, R357, R358, R360 to R362: a register that the host writes reads back; the snapshot trigger; fabric contexts, exports and
encoder sessions; links and expander ports that fail.
That a session's and a fabric context's number is its engine context's is log entry 31. -/
def Obligations.HostSide : Prop :=
  ∀ s : State,
    (∀ off v, s.ev = .reg off v → off % 4 = 0 → s.ownRow off v = false → s.pkg.presents off = false → exec .registerWrite s = .next s) ∧
    -- recovery control with nothing to recover, a fabric context doorbell of another value: nothing happens
    (∀ off v, s.ev = .reg off v → s.pkg.presents off = true →
      (off = 0x8 ∧ (s.pkg.stage ≠ 8 ∨ v.getLsbD 0 = false) ∨ off = 0x020080 ∧ v ≠ 1 ∧ v ≠ 2) → exec .registerWrite s = .next s) ∧
    -- a word of a session's entry that the host may write
    (∀ i o v, i < 256 → o < 64 → o % 4 = 0 → s.ev = .reg (0x300000 + 64 * i + o) v → s.pkg.powered = true → s.pkg.stage < 8 → 4 ≤ o →
      let x := s.pkg.session i
      x.entry.length = 64 →
      (x.status ≠ 3 → (x.valid = true → x.status = 0 → 24 ≤ o) → ∃ u, exec .registerWrite s = .next u ∧
        u.readReg (0x300000 + 64 * i + o) = some v ∧ u.mem = s.mem ∧ u.teams = s.teams ∧
        ∃ y, u.pkg.sessions.find? i = some y ∧ y = { x with entry := y.entry }) ∧
      (x.status = 3 ∨ x.valid = true ∧ x.status = 0 ∧ o < 24 → exec .registerWrite s = .next s)) ∧
    -- past the snapshot banks nothing is listed; the second link of a package in recovery shows the boot status alone
    (s.pkg.powered = true → s.pkg.presents (0x1000000 + 65536 * snapBanks) = true →
      s.readReg (0x1000000 + 65536 * snapBanks) = some 0) ∧
    (s.pkg.powered = true → 8 ≤ s.pkg.stage → ∀ off, s.readSecond off = some (if off = 0 then s.bootStatus else 0)) ∧
    (∀ off v, s.ev = .reg off v → off % 4 = 0 → s.pkg.powered = true → s.pkg.presents off = true →
      off ∈ [0x010000, 0x010004, 0x010008, 0x010010, 0x010014, 0x010018, 0x01001C, 0x010100, 0x010104, 0x010108, 0x010110] ∨
        (0x020040 ≤ off ∧ off < 0x020080) ∨ (0x200000 ≤ off ∧ off < 0x210000) →
      ∃ u, exec .registerWrite s = .next u ∧ u.readReg off = some v ∧ u.teams = s.teams) ∧
    (s.pkg.powered = false → ∀ off, s.readReg off = none) ∧
    (∀ v, s.ev = .reg 0x020000 v → s.pkg.stage < 8 → ∃ u, exec .registerWrite s = .next u ∧ u.pkg.peer = v.toNat % 4096 ∧ u.pkg.epoch = v.toNat / 4096 % 16 ∧
      u.mem = s.mem) ∧
    (8 ≤ s.pkg.stage → ∀ i ∈ [Instr.snapshotTrigger, .fabricContextCreate, .fabricContextDestroy, .exportTableWrite, .sessionOpen, .sessionClose],
      exec i s = .next s) ∧
    (∀ sp x, s.pkg.stage < 8 → s.ctxs.find? sp = some x → x.armed = true → (∀ y ∈ s.ctxs, y.2.armed = true → y.1 = sp) →
      ∃ u, exec .snapshotTrigger s = .next u ∧ u.pkg.snapTime = s.now / 18 ∧ (∀ y ∈ u.ctxs, y.2.armed = false) ∧ u.mem = s.mem ∧
        u.teams = s.teams ∧ u.pkg.snapRest = s.latchRest ∧ (∀ r ∈ s.recent, s.latch r.1 ∈ u.pkg.snaps) ∧
        ∀ t T, s.teams.find? t = some T → s.latch T.core ∈ u.pkg.snaps) ∧
    ((∀ y ∈ s.ctxs, y.2.armed = false) → exec .snapshotTrigger s = .next s) ∧
    (s.pkg.stage < 8 → let d := fieldAt s.pkg.staged
      let id := (s.newCtx .fabric (d 4 2)).1
      (s.pkg.stagedOk = true → (s.ctxs.find? (d 4 2)).isSome → ∃ u, exec .fabricContextCreate s = .next u ∧
        u.fab.ctxs.find? id = some ⟨d 6 2, BitVec.ofNat 64 (d 8 8), BitVec.ofNat 64 (d 16 8), d 24 4⟩ ∧
        u.ectxs.find? id = some ⟨.fabric, d 4 2, 0, 0, [], [], []⟩ ∧ u.pkg.fabLast = BitVec.ofNat 32 id ∧ u.mem = s.mem) ∧
      (s.pkg.stagedOk = false ∨ s.ctxs.find? (d 4 2) = none →
        exec .fabricContextCreate s = .next { s with pkg := { s.pkg with fabLast := 0x80000000#32 } }) ∧
      exec .fabricContextDestroy s = .next { s with fab := { s.fab with ctxs := s.fab.ctxs.erase (d 0 4) } }) ∧
    (∀ i bs, s.pkg.stage < 8 → s.ev = .entry i bs → i < 256 → bs.length = 32 →
      let flag (k : Nat) : Bool := fieldAt bs 4 1 / 2 ^ k % 2 == 1
      let e : Export := ⟨flag 0, fieldAt bs 0 2, fieldAt bs 2 2, flag 1, flag 2, fieldAt bs 8 8, fieldAt bs 16 8⟩
      ((∃ b ∈ bs, b ≠ 0) → exec .exportTableWrite s = .next { s with pkg := { s.pkg with exports := s.pkg.exports.insert i e } }) ∧
      ((∀ b ∈ bs, b = 0) → exec .exportTableWrite s = .next { s with pkg := { s.pkg with exports := s.pkg.exports.erase i } })) ∧
    (∀ i bs, s.pkg.stage < 8 → s.ev = .entry i bs → i < 256 → bs.length = 64 → fld (fieldAt bs 0 4) 31 1 = 1 → sessionOk bs = true →
      (∀ x, s.pkg.sessions.find? i = some x → x.status ≠ 3 ∧ (x.valid = true → x.status ≠ 0)) →
      let load := fieldAt bs 8 2 * fieldAt bs 10 2 * fieldAt bs 12 2
      let takes (e : Nat) : Prop := e < 8 ∧ s.encoderLoad e + load ≤ 830000000
      ((∀ e, ¬ takes e) → ∃ u x, exec .sessionOpen s = .next u ∧ u.pkg.sessions.find? i = some x ∧ x.status = 2) ∧
      ∀ e, takes e → (∀ f, takes f → s.encoderLoad e < s.encoderLoad f ∨ s.encoderLoad e = s.encoderLoad f ∧ e ≤ f) →
        ∃ u x, exec .sessionOpen s = .next u ∧ u.pkg.sessions.find? i = some x ∧ x.status = 0 ∧ x.valid = true ∧ x.id = (s.newCtx (.encoder i) (fieldAt bs 4 2)).1 ∧
          x.encoder = e ∧ x.load = load ∧ x.space = fieldAt bs 4 2 ∧
          u.ectxs.find? x.id = some ⟨.encoder i, fieldAt bs 4 2, 0, 0, [], [], []⟩ ∧ u.mem = s.mem) ∧
    (∀ i, s.ev = .index i →
      (∀ x, s.pkg.stage < 8 → s.pkg.sessions.find? i = some x → x.valid = true → x.status = 0 → (∀ c, s.ectxs.find? x.id = some c → c.pend = []) →
        ∃ u y, exec .sessionClose s = .next u ∧ u.pkg.sessions.find? i = some y ∧ y.status = 4 ∧ y.valid = false ∧ y.load = 0 ∧
          u.mem = s.mem) ∧
      (i < 2 → exec .hostLinkDown s = .next { s with pkg := { s.pkg with hostDown := setInsert s.pkg.hostDown i } }) ∧
      (i ∈ s.pkg.hostDown → exec .hostLinkUp s = .next { s with pkg := { s.pkg with hostDown := setErase s.pkg.hostDown i } }) ∧
      ((s.pkg.cxl.find? i).isSome →
        exec .cxlPortFailure s = .next { s with pkg := { s.pkg with cxlFailed := setInsert s.pkg.cxlFailed i } }))

/-- R239, R240, R243, R312: a page moves to the die that uses it most; counters are halved; single-bit errors are corrected, others poison;
a message leaves its link's buffer and its permit returns.
Which frame is free and when single errors are corrected are log entries 46 and 47. -/
def Obligations.PagesErrorsMessages : Prop :=
  (∀ (s : State) (sp va die frame a key : Nat), s.ev = .page sp va die frame → s.entryOf sp va = some a →
    s.translate sp (va / 65536 * 65536) .read true = .hit key →
    let e := s.nat a 8
    pteBad e = false → fld e 1 1 = 1 → fld e 5 1 = 0 → s.mayMigrate sp (key / 65536) (s.homeDie key) die = true →
    (fld e 52 4 = 0 →
      let old := fld e 16 36
      let new := e - old * 65536 + frame * 65536
      frame * 65536 / 2 ^ 38 = die → s.frameFree frame = true → s.mappers old = [a] → s.tables.contains (old * 65536) = false →
      s.blockInUse old = false → s.agrees (s.store a (natBytes 8 new)) = true →
      ¬ (old * 65536 < a + 8 ∧ a < old * 65536 + 65536) → ¬ (frame * 65536 < a + 8 ∧ a < frame * 65536 + 65536) →
      ∃ u, exec .migratePage s = .next u ∧ u.nat a 8 = new ∧ u.bytes (frame * 65536) 65536 = s.bytes (old * 65536) 65536 ∧
        u.owners.find? frame = some sp ∧ ∀ b, ¬ (a ≤ b ∧ b < a + 8) → ¬ (frame * 65536 ≤ b ∧ b < frame * 65536 + 65536) →
          memByte u.mem b = if old * 65536 ≤ b ∧ b < old * 65536 + 65536 then 0 else memByte s.mem b) ∧
    (fld e 52 4 = 1 ∨ fld e 52 4 = 2 → exec .migratePage s = .next { s with homes := s.homes.insert (key / 65536) die })) ∧
  (∀ s : State, s.counts.sorted = true → ∃ u, exec .migrationCounterHalve s = .next u ∧ u.mem = s.mem ∧ u.teams = s.teams ∧
    ∀ k, u.counts.getD k 0 = s.counts.getD k 0 / 2) ∧
  -- what a read corrects, in memory and elsewhere
  (∀ (s : State) (a n : Nat), (s.readMem a n).mem = s.mem ∧ (s.readMem a n).teams = s.teams ∧
    ∀ w, w ∈ (s.readMem a n).latent ↔ w ∈ s.latent ∧ w ∉ wordsOf a n) ∧
  (∀ (s : State) (p : ErrLoc → Bool), (s.readUnits p).teams = s.teams ∧ (s.readUnits p).flips = s.flips.filter (fun x => !p x) ∧
    ∀ d, (s.readUnits p).corrected.getD d 0 = s.corrected.getD d 0 + (s.flips.filter fun x => p x && s.dieAt x == d).length) ∧
  (∀ s : State, ∃ u, exec .patrolScrub s = .next u ∧ u.latent = [] ∧ u.mem = s.mem ∧ u.poison = s.poison ∧
    ∀ d, u.corrected.getD d 0 = s.corrected.getD d 0 + (s.latent.filter fun w => s.homeDie (8 * w) == d).length) ∧
  (∀ (s : State) (loc : ErrLoc) (double : Bool), s.ev = .error loc double →
    (∀ key, loc = .mem key → key < hostKey →
      (double = false → key / 8 ∉ s.latent → exec .softError s = .next { s with latent := setInsert s.latent (key / 8) }) ∧
      (double = true ∨ key / 8 ∈ s.latent → exec .softError s = .next { s with
        poison := setInsert s.poison (key / 8), latent := setErase s.latent (key / 8) })) ∧
    (double = false →
      (∀ c t g i die, loc = .control c ∨ loc = .split t g i ∨ loc = .clean die → ∃ u, exec .softError s = .next u ∧ u.mem = s.mem ∧
        u.teams = s.teams ∧ u.corrected.getD (s.dieAt loc) 0 = s.corrected.getD (s.dieAt loc) 0 + 1) ∧
      -- elsewhere the error stands until the word is read; a second one in the word is uncorrectable
      ∀ t g n k c die, loc ∈ [ErrLoc.vreg t g n k, .sreg t g n, .pad t n, .tile c n k, .weight c n k, .tail die n k] →
        (ErrLoc.word loc ∉ s.flips → exec .softError s = .next { s with flips := s.flips ++ [ErrLoc.word loc] }) ∧
        (ErrLoc.word loc ∈ s.flips → ∀ v : State, v.ev = .error loc true → v = { s with ev := v.ev } →
          ∃ u w, exec .softError s = .next u ∧ exec .softError v = .next w ∧ ErrLoc.word loc ∉ u.flips ∧ w = { u with ev := v.ev })) ∧
    (double = true →
      (∀ t g n k G, loc = .vreg t g n k → k < 32 → s.group? t g = some G → (SMap.find? G.v n).isSome →
        ∃ u H, exec .softError s = .next u ∧ u.group? t g = some H ∧
          (∀ j < 32, (H.v.getD n VReg.zero).bad.has j = ((G.v.getD n VReg.zero).bad.has j || j / 2 == k / 2)) ∧
          ∀ j, (H.v.getD n VReg.zero).lane j = (G.v.getD n VReg.zero).lane j) ∧
      (∀ t g n G, loc = .sreg t g n → s.group? t g = some G →
        ∃ u H, exec .softError s = .next u ∧ u.group? t g = some H ∧ (∀ m, m ∈ H.sbad ↔ m ∈ G.sbad ∨ m / 2 = n / 2) ∧ H.s = G.s) ∧
      ∀ c t T, (loc = .control c ∨ ∃ t' g i T', loc = .split t' g i ∧ s.teams.find? t' = some T' ∧ T'.core = c) → s.teams.find? t = some T → T.core = c → T.cause = none → T.st = .running →
        ∃ u X, exec .softError s = .next u ∧ u.teams.find? t = some X ∧ X.cause = some 15 ∧ X.st = .halted)) ∧
  ∀ (s : State) (sector m : Nat) (ms : List Nat) (up : Bool), s.ev = .link sector up → ((s.link sector).side up).buffer = m :: ms →
    ∃ u, exec .linkMessage s = .next u ∧ u.mem = s.mem ∧ (u.link sector).side (!up) = (s.link sector).side (!up) ∧
      (((s.link sector).side up).queue = [] → ((u.link sector).side up).buffer = ms ∧
        ((u.link sector).side up).permits = ((s.link sector).side up).permits + 1) ∧
      ∀ n ns, ((s.link sector).side up).queue = n :: ns → ((u.link sector).side up).buffer = ms ++ [n] ∧
        ((u.link sector).side up).queue = ns ∧ ((u.link sector).side up).permits = ((s.link sector).side up).permits

/-! ## The fabric -/

/-- R337 to R340, R347, R352 to R354: flits in and out of sequence, packets that have come in full, records compared, HOLD and FAILED ports,
links that leave UP and the packets that were unacknowledged there.
Sequence numbers after training and the two re-enables are log entry 49. -/
def Obligations.FabricLinks : Prop :=
  (∀ (s : State) (i : Nat) (data : List Byte) (trailer : Dword), s.ev = .flit i data trailer →
    let p := s.port i
    let good := flitOk data trailer = true ∧ trailer.toNat % 4096 = p.rxSeq
    (p.st ≠ .up → exec .flitReceive s = .next s) ∧
    (p.st = .up → ¬ good → ∃ u, exec .flitReceive s = .next u ∧ u.port i = { p with discarding := true } ∧ u.agenda = s.agenda) ∧
    (p.st = .up → good → ∃ u, exec .flitReceive s = .next u ∧ (u.port i).rxSeq = (p.rxSeq + 1) % 4096 ∧ (u.port i).discarding = false ∧
      let bs := p.rxData ++ data
      (bs.length < packetLength bs → (u.port i).rxData = bs ∧ u.agenda = s.agenda) ∧
      ∀ row, packetLength bs ≤ bs.length → packetRow (parsePacket (bs.take (packetLength bs))) = some row →
        (u.port i).rxData = [] ∧ u.agenda = .event row (.portPacket i (parsePacket (bs.take (packetLength bs)))) :: s.agenda)) ∧
  (∀ (s : State) (i : Nat) (mine r : LinkRecord) (a : Nat) (final : Bool), s.ev = .record i mine r → i < 18 →
    (s.port i).st = .training a final →
    let m : LinkRecord := { (if final then (s.port i).mine else mine) with attempt := BitVec.ofNat 2 a }
    let ends (st : LinkSt) : Prop := ∃ u, exec .configurationRecord s = .next u ∧ (u.port i).st = st ∧
      (u.port i).sent = (s.port i).sent ++ [m] ∧ (u.port i).got = (s.port i).got ++ [r] ∧ (∀ j, j ≠ i → u.port j = s.port j) ∧
      ∃ t, (u.port i).wire = (s.port i).wire ++
        [(natBytes 1 m.width.toNat ++ [m.laneMap] ++ natBytes 1 m.speed.toNat ++ natBytes 1 a ++ List.replicate 60 0, t)]
    let match_ := m.width = r.width ∧ m.laneMap = r.laneMap ∧ m.speed = r.speed ∧ m.width ≠ 0 ∧ m.speed ≠ 3
    (match_ → ends .up) ∧ (¬ match_ → final = true → ends .failed) ∧ (¬ match_ → final = false → a < 3 → ends (.hold a)) ∧
    (¬ match_ → final = false → 3 ≤ a → ends .fallback)) ∧
  (∀ (s : State) (i : Nat), s.ev = .index i → i < 18 →
    let becomes (x : Instr) (st : LinkSt) : Prop := ∃ u, exec x s = .next u ∧ (u.port i).st = st ∧ ∀ j, j ≠ i → u.port j = s.port j
    (∀ a, (s.port i).st = .hold a → becomes .holdEnd (.training (a + 1) false)) ∧
    ((s.port i).st = .down → becomes .portReenable (.training 0 false) ∧ ∀ u, exec .portReenable s = .next u →
      (u.port i).sent = (s.port i).sent ∧ (u.port i).got = (s.port i).got) ∧
    ((s.port i).st = .failed → becomes .portReenable .down) ∧
    ((s.port i).st = .up → (∀ r ∈ s.fab.runs, ∀ u ∈ r.2.flight, u.pkt.plane.toNat ≠ i ∨ u.ended.isSome) →
      becomes .lossOfSignal (.training 0 false) ∧
      ((∃ f ∈ (s.port i).replay, (s.port i).open_ f ∧ 16 ≤ f.replays) → becomes .linkRetrain (.training 0 false))) ∧
    ((∀ f ∈ (s.port i).replay, (s.port i).open_ f → f.replays < 16) → exec .linkRetrain s = .refused (.notEnabled "LINK_RETRAIN")) ∧
    ∀ key n u, s.portsListed → (s.port i).st = .up → s.fab.runs = [(key, ⟨n, [u], []⟩)] → u.pkt.plane.toNat = i → u.ended = none →
      ∀ j, j ≠ i → (s.port j).st = .up → (∀ k, (s.port k).st = .up → k = i ∨ k = j) → j ∉ u.tried →
      (∃ w, exec .lossOfSignal s = .next w ∧ (w.port i).st = .training 0 false ∧ SentAgain s w key u fun k => k = j)) ∧
  -- a replay; once a flit has been replayed 16 times the link retrains instead
  (∀ (s : State) (i : Nat) (p : Port), s.fab.ports.find? i = some p → (∃ f ∈ p.replay, p.open_ f ∧ 16 ≤ f.replays) →
    ∃ u, s.takeInput (.flitReplay i) = .next u ∧ (u.port i).st = .training 0 false) ∧
  (∀ (s : State) (i : Nat) (p : Port), s.fab.ports.find? i = some p → (∀ f ∈ p.replay, p.open_ f → f.replays < 16) → ∃ u q, s.takeInput (.flitReplay i) = .next u ∧
    u.fab.ports.find? i = some q ∧ q.replay.map (fun f => (f.seq, f.data)) = p.replay.map (fun f => (f.seq, f.data)) ∧
    (∀ (j : Nat) (f : Flit), p.replay[j]? = some f → ∃ h : Flit, q.replay[j]? = some h ∧ (p.open_ f → h.replays = f.replays + 1) ∧ (¬ p.open_ f → h = f)) ∧
    ((∀ f ∈ p.replay, p.open_ f) → q.wire.map Prod.fst = p.wire.map Prod.fst ++ p.replay.map Flit.data)) ∧
  ∀ (s : State) (i : Nat) (x : Packet), s.ev = .portPacket i x → packetReserved x = true →
    ∃ u, exec .reservedPacketType s = .next u ∧ u.port i = { s.port i with errors := (s.port i).errors + 1 } ∧ u.fab.out = s.fab.out ∧
      u.mem = s.mem

/-- R334, R335, R342, R344 to R346, R349: what a request does at its target and the answer that goes back; a check that fails is answered with
its status; a request already performed is answered again and does nothing; a trimmed header asks for the packet.
Answers about poison, pages of other tiers and forgotten duplicates are log entry 48. -/
def Obligations.FabricRequests : Prop :=
  ∀ (s : State) (i : Nat) (x : Packet),
    (FreshRequest s x →
      let performed (u : State) : Prop := (∃ w, u.fab.windows.find? (windowKey x) = some w ∧ x.seq.toNat ∈ w.performed) ∧
        ∀ w ∈ u.fab.windows, w.1 % 4096 = x.source.toNat → w.2.epoch = x.epoch.toNat
      let refused (row : Instr) (status : Nat) : Prop := ∃ u, exec row s = .next u ∧ u.mem = s.mem ∧ performed u ∧ Replies s u x 7 status 0 []
      let wrote (row : Instr) : Prop := ∀ e key, Exported s x true e key → x.payload.length = (maskWords x.mask).length →
        ∃ u, exec row s = .next u ∧ performed u ∧ Replies s u x 3 0 0 [] ∧
          (∀ a, ¬ (key ≤ a ∧ a < key + 256) → memByte u.mem a = memByte s.mem a) ∧
          ∀ o < 256, memByte u.mem (key + o) =
            if x.mask.getLsbD (o / 4) = true ∧ (x.trailer = true → (x.index.getD (o / 8) 0).getLsbD (o % 8) = true) then
              carried x.mask x.payload o
            else memByte s.mem (key + o)
      let applied (row : Instr) (type : Nat) : Prop := ∀ e key, Exported s x true e key → fld x.mask.toNat 8 6 = 1 →
        let a := key + 4 * ((x.index.getD 0 0).toNat % 64)
        let old := bytesWord (s.bytes a 4)
        s.poisoned a 4 = false → ∃ u, exec row s = .next u ∧ performed u ∧
          Replies s u x type 0 (if type = 5 then 256 else 0) (if type = 5 then [old] else []) ∧
          Stored s u a (wordBytes (atomicNew (fld x.mask.toNat 0 5) old (x.payload.getD 0 0) (x.payload.getD 1 0)))
      (AtPacket s i x 0 false →
        (∀ e key, Exported s x false e key → (∀ w ∈ maskWords x.mask, s.poisoned (key + 4 * w) 4 = false) →
          ∃ u, exec .read s = .next u ∧ u.mem = s.mem ∧ performed u ∧
            Replies s u x 1 0 x.mask ((maskWords x.mask).map fun w => bytesWord (s.bytes (key + 4 * w) 4))) ∧
        ((∀ e ∈ s.pkg.exports, e.2.valid = true → e.2.domain ≠ x.domain.toNat) → refused .read 5)) ∧
      (AtPacket s i x 2 false → wrote .write ∧
        ∀ k e, (k, e) ∈ s.pkg.exports → e.valid = true → e.domain = x.domain.toNat →
          (∀ y ∈ s.pkg.exports, y.2.valid = true → y.2.domain = x.domain.toNat → y = (k, e)) →
          (e.revoked = true → refused .write 2) ∧ (e.revoked = false → e.size ≤ x.line.toNat → refused .write 1) ∧
          (e.revoked = false → x.line.toNat < e.size → e.ro = true → refused .write 3)) ∧
      (AtPacket s i x 4 false → applied .atomic 5) ∧ (AtPacket s i x 6 false → applied .reduction 3) ∧
      (AtPacket s i x 9 true → wrote .multicastWrite) ∧ (AtPacket s i x 10 true → applied .multicastReduction 3)) ∧
    ((s.windowFor x).done x.seq.toNat = true → x.trimmed = false → AtPacket s i x 2 false →
      ∃ u, exec .write s = .next u ∧ u.mem = s.mem ∧
        (((s.windowFor x).kept.find? fun p => p.seq == x.seq) = none → Replies s u x 3 0 0 []) ∧
        ∀ p, ((s.windowFor x).kept.find? fun p => p.seq == x.seq) = some p → p.mc = false →
          ∃ y, u.fab.out = s.fab.out ++ [y] ∧ y = { p with plane := y.plane }) ∧
    -- a member's answer goes back on the plane that this copy came on, if that is UP
    ((s.windowFor x).done x.seq.toNat = true → AtPacket s i x 9 true →
      ∀ p, ((s.windowFor x).kept.find? fun p => p.seq == x.seq) = some p → p.mc = true → ∃ u, exec .multicastWrite s = .next u ∧
        u.mem = s.mem ∧ u.fab.out = if s.upPlanes.contains x.plane.toNat then s.fab.out ++ [{ p with plane := x.plane }] else s.fab.out) ∧
    (∀ t, AtPacket s i x t false → t ∈ [0, 2, 4, 6] → x.trimmed = true → (s.windowFor x).done x.seq.toNat = false →
      ∃ u, exec .trimmedHeader s = .next u ∧ u.mem = s.mem ∧ Replies s u x 8 0 0 [])

/-- R137, R146, R151, R188, R341, R342, R347, R349 to R351: what an answer does for the lanes or the engine operation that waits; resends,
timeouts, the counts of a multicast packet, the chunks of a collective.
The entry of members never counted and a failed collective's record are log entries 50 and 33. -/
def Obligations.FabricAnswers : Prop :=
  (∀ (s : State) (i : Nat) (x : Packet) (u : Unacked), let key := x.source.toNat
    let seq := x.seq.toNat
    Answers s x key u →
    let counted (row : Instr) (ok : Nat → EOp → EOp) : Prop := ∀ c n dest off len o, u.origin = .engine c n dest off len →
      s.eop? c n = some o → o.num = n → ∃ w, exec row s = .next w ∧ Acked s w key seq ∧ w.mem = s.mem ∧
        w.eop? c n = some { ok (windowAddr u.pkt) o with back := o.back + 1 }
    let lanesFail (row : Instr) (cause : Cause) : Prop := ∀ t g id k T G o a, u.origin = .lanes t g id [k] → LaneOf s t g id k T G o →
      (o.accs.find? fun a => a.lane == k) = some a → o.faults = [] → (∃ b ∈ o.accs, b.lane ≠ k) →
      ∃ w H y, exec row s = .next w ∧ Acked s w key seq ∧ w.group? t g = some H ∧ H.op? id = some y ∧
        y.accs = o.accs.filter (fun b => b.lane != k) ∧
        y.faults.map (fun f => (f.cause, f.lanes, f.addr, f.pc)) = [(cause, Mask.one k, a.ea, o.pc)]
    let fails (row : Instr) : Prop := counted row (fun a o => o.failedAt a) ∧ (x.status.toNat ≠ 4 → lanesFail row .fabric)
    (AtPacket s i x 1 false → u.pkt.type = 0 → x.status.toNat = 0 ∨ x.status.toNat = 4 → x.payload.length = (maskWords u.pkt.mask).length →
      (∀ t g id k T G o a size signed acq, u.origin = .lanes t g id [k] → LaneOf s t g id k T G o → o.kind = .load size signed acq →
        size ∈ [1, 2, 4, 8, 16] → (o.accs.find? fun a => a.lane == k) = some a →
        (∀ j < size, u.pkt.mask.getLsbD ((a.ea.toNat % 256 + j) / 4) = true) →
        ∃ w, Gives .readResponse s w t g id k G o 0
            (wordsOfLoad size signed ((List.range size).map fun j => carried u.pkt.mask x.payload (a.ea.toNat % 256 + j))) ∧
          Acked s w key seq ∧ w.mem = s.mem ∧
          ∀ H y, w.group? t g = some H → H.op? id = some y → ∀ j r, j < (size + 3) / 4 → y.nv[j]? = some r →
            (r.bad.has k = true ↔ x.status.toNat = 4 ∧ ∃ b < size, b / 4 = j ∧ x.mask.getLsbD ((a.ea.toNat % 256 + b) / 4) = true)) ∧
      ∀ c n dest off len o kd, u.origin = .engine c n dest off len → s.eop? c n = some o → o.num = n →
        o.failure = none → 0 < len → dest % 65536 + len ≤ 65536 → s.writes o.space dest kd →
        (∀ j < len, u.pkt.mask.getLsbD ((off + j) / 4) = true) →
        ∃ w, exec .readResponse s = .next w ∧ Acked s w key seq ∧ w.eop? c n = some { o with back := o.back + 1 } ∧
          Stored s w kd ((List.range len).map fun j => carried u.pkt.mask x.payload (off + j)) ∧
          (x.status.toNat = 4 →
            ∀ v, v ∈ w.poison ↔ (∃ j < len, x.mask.getLsbD ((off + j) / 4) = true ∧ v = (kd + j) / 8) ∨
              v ∈ s.poison ∧ ¬ (kd ≤ 8 * v ∧ 8 * v + 8 ≤ kd + len))) ∧
    (AtPacket s i x 1 false → u.pkt.type = 0 → ∀ c n dest off len o, u.origin = .engine c n dest off len → s.eop? c n = some o →
      o.failure ≠ none → ∀ w, exec .readResponse s = .next w → w.mem = s.mem) ∧
    ((AtPacket s i x 1 false ∧ u.pkt.type = 0 → x.status.toNat ∉ [0, 4] → fails .readResponse) ∧
      (AtPacket s i x 3 false ∧ (u.pkt.type = 2 ∨ u.pkt.type = 6) → x.status.toNat ≠ 0 →
        fails .ack ∧ (x.status.toNat = 4 → lanesFail .ack .ecc)) ∧
      (AtPacket s i x 5 false ∧ u.pkt.type = 4 → x.status.toNat ≠ 0 →
        fails .atomicResponse ∧ (x.status.toNat = 4 → lanesFail .atomicResponse .ecc))) ∧
    (AtPacket s i x 3 false → u.pkt.type = 2 ∨ u.pkt.type = 6 → x.status.toNat = 0 → counted .ack fun _ o => o) ∧
    (AtPacket s i x 5 false → u.pkt.type = 4 → x.status.toNat = 0 → ∀ t g id k T G o a, u.origin = .lanes t g id [k] →
      LaneOf s t g id k T G o → (o.accs.find? fun a => a.lane == k) = some a →
      ∃ w, Gives .atomicResponse s w t g id k G o 0 [x.payload.getD 0 0] ∧ Acked s w key seq ∧ w.mem = s.mem) ∧
    (AtPacket s i x 7 false → u.pkt.type = 0 ∨ u.pkt.type = 2 ∨ u.pkt.type = 4 ∨ u.pkt.type = 6 →
      fails .negative) ∧
    (AtPacket s i x 8 false → ∃ w, exec .resendRequest s = .next w ∧ w.mem = s.mem ∧
      w.unacked? key seq = some { u with resendAt := some (s.now + 18 * 64 * x.lowack.toNat), deadline := s.now + 900000 })) ∧
  (∀ (s : State) (key seq : Nat) (u : Unacked), s.ev = .run key seq → s.unacked? key seq = some u → u.pkt.seq.toNat = seq → u.ended = none →
    (∀ t, u.resendAt = some t → s.portsListed → (∃ i, (s.port i).st = .up) → ∃ w, exec .resend s = .next w ∧ w.now = max s.now t ∧
      SentAgain s w key u fun i => (s.port i).st = .up ∧ ∀ j, (s.port j).st = .up →
        (s.port i).unacked < (s.port j).unacked ∨ (s.port i).unacked = (s.port j).unacked ∧ i ≤ j) ∧
    (u.resendAt = none →
      let row : Instr := if u.pkt.mc then .multicastTimeout else .fabricTimeout
      let ups := s.upPlanes
      let left := ups.filter fun p => p ≠ u.pkt.plane.toNat && !u.tried.contains p
      (left ≠ [] → s.portsListed → ∃ w, exec row s = .next w ∧ w.now = max s.now u.deadline ∧
        SentAgain s w key u fun p => p = nextPlane ups u.pkt.plane.toNat) ∧
      (left = [] → u.pkt.mc = false → ∀ c n dest off len o, u.origin = .engine c n dest off len → s.eop? c n = some o → o.num = n →
        ∃ w, exec row s = .next w ∧ Acked s w key seq ∧ w.eop? c n = some { o.failedAt (windowAddr u.pkt) with back := o.back + 1 }) ∧
      (left = [] → u.pkt.mc = true → u.negatives = [] → ∀ c n dest off len o x y ki ke, u.origin = .engine c n dest off len →
        s.eop? c n = some o → o.num = n → o.failure = none → o.barred = false → s.fab.ctxs.find? u.ctx = some x → s.ectxs.find? u.ctx = some y →
        let lost := s.memberCount u.pkt.target.toNat - u.positive
        0 < lost → lost < 65536 → EventRoom s y.space x ki ke →
        ∃ w, exec row s = .next w ∧ Acked s w key seq ∧
          w.eop? c n = some { o.failedAt (windowAddr u.pkt) with back := o.back + 1 } ∧
          Recorded s w ki ke (natBytes 4 2 ++ natBytes 4 (u.pkt.target.toNat + 4096) ++ natBytes 8 (future c n).toNat ++
            natBytes 8 u.pkt.line.toNat ++ natBytes 4 u.positive ++ natBytes 4 lost ++ natBytes 4 (6 * 4096 + lost * 65536) ++
            natBytes 28 0)))) ∧
  (∀ (s : State) (i : Nat) (x : Packet) (u : Unacked), let key := 4096 + x.source.toNat
    AtPacket s i x 11 false → Answers s x key u →
    (x.plane ≠ u.pkt.plane → exec .aggregatedAck s = .next s) ∧ (x.plane = u.pkt.plane → fld x.mask.toNat 32 16 = 0 →
    let n := u.positive + fld x.mask.toNat 0 32
    (n + u.negatives.length < s.memberCount x.source.toNat → ∃ w, exec .aggregatedAck s = .next w ∧ w.mem = s.mem ∧
      w.unacked? key x.seq.toNat = some { u with positive := n }) ∧
    (s.memberCount x.source.toNat ≤ n → u.negatives = [] → ∀ c k dest off len o, u.origin = .engine c k dest off len →
      s.eop? c k = some o → o.num = k →
      ∃ w, exec .aggregatedAck s = .next w ∧ Acked s w key x.seq.toNat ∧ w.eop? c k = some { o with back := o.back + 1 }))) ∧
  (∀ (s : State) (i : Nat) (x : Packet) (ctx op : Nat) (src dst : Dword) (count kd : Nat) (o : EOp), AtPacket s i x 13 true →
    s.collFor x.target.toNat x.seq.toNat = some (ctx, o) → o.cmd = .coll op src dst count x.target.toNat → s.eop? ctx o.num = some o →
    o.failure = none → o.wait = [] → x.status = 0 →
    let k := x.line.toNat / 256
    let n := min 64 (count - 64 * k)
    let dest := dst.toNat + 256 * k
    k ∉ o.got → k < collChunks count → dest % 65536 + 4 * n ≤ 65536 → s.writes o.space dest kd →
    ∃ w, exec .collectiveResult s = .next w ∧ w.eop? ctx o.num = some { o with got := setInsert o.got k, declined := false } ∧
      Stored s w kd ((List.range n).flatMap fun j => wordBytes (x.payload.getD j 0))) ∧
  ∀ (s : State) (ctx num op : Nat) (src dst : Dword) (count grp ki : Nat) (o : EOp) (x : FabCtx), s.ev = .engine ctx num →
    s.eop? ctx num = some o → o.num = num → o.cmd = .coll op src dst count grp → s.fab.ctxs.find? ctx = some x → x.timeout ≠ 0 →
    o.running = true → o.failure = none → o.wait = [] → o.got.length ≠ collChunks count →
    ∀ ke, EventRoom s o.space x ki ke →
      ∃ w, exec .collectiveTimeout s = .next w ∧ w.now = max s.now (o.since + 18 * 1000 * x.timeout) ∧
        w.eop? ctx num = some { o with failure := some (.fabric, 0) } ∧
        Recorded s w ki ke (natBytes 4 2 ++ natBytes 4 (grp + 4096) ++ natBytes 8 (future ctx num).toNat ++ natBytes 8 0 ++ natBytes 4 0 ++
          natBytes 4 1 ++ natBytes 4 (6 * 4096) ++ natBytes 28 0)
end

