-- ==== Sys2Proof/Laws/Map.lean ====
section
/-! SUPPORT. Laws of sparse maps: reading after each operation, and the canonical form. -/
namespace Sys2Proof.Machine

variable {α : Type}

@[simp] theorem SMap.find?_nil (i : Nat) : SMap.find? ([] : SMap α) i = none := rfl

@[simp] theorem SMap.find?_insert_self (m : SMap α) (i : Nat) (v : α) : SMap.find? (SMap.insert m i v) i = some v := by
  induction m with
  | nil => simp [SMap.insert, SMap.find?]
  | cons x r ih =>
    obtain ⟨k, w⟩ := x
    simp only [SMap.insert]
    split
    · simp [SMap.find?]
    · split
      · simp [SMap.find?]
      · simp [SMap.find?, *]

theorem SMap.find?_insert_ne (m : SMap α) {i j : Nat} (v : α) (h : j ≠ i) : SMap.find? (SMap.insert m i v) j = SMap.find? m j := by
  induction m with
  | nil => simp [SMap.insert, SMap.find?, Ne.symm h]
  | cons x r ih =>
    obtain ⟨k, w⟩ := x
    simp only [SMap.insert]
    split
    · rename_i hk
      subst hk
      simp [SMap.find?, Ne.symm h]
    · split
      · simp [SMap.find?, Ne.symm h]
      · simp [SMap.find?, ih]

@[simp] theorem SMap.find?_erase_self (m : SMap α) (i : Nat) : SMap.find? (SMap.erase m i) i = none := by
  induction m with
  | nil => rfl
  | cons x r ih =>
    obtain ⟨k, w⟩ := x
    simp only [SMap.erase]
    split <;> simp [SMap.find?, *]

theorem SMap.find?_erase_ne (m : SMap α) {i j : Nat} (h : j ≠ i) : SMap.find? (SMap.erase m i) j = SMap.find? m j := by
  induction m with
  | nil => rfl
  | cons x r ih =>
    obtain ⟨k, w⟩ := x
    simp only [SMap.erase]
    split
    · rename_i hk
      subst hk
      simp [SMap.find?, Ne.symm h, ih]
    · simp [SMap.find?, ih]

@[simp] theorem SMap.find?_modify_self (m : SMap α) (i : Nat) (f : α → α) :
    SMap.find? (SMap.modify m i f) i = (SMap.find? m i).map f := by
  induction m with
  | nil => rfl
  | cons x r ih =>
    obtain ⟨k, w⟩ := x
    simp only [SMap.modify]
    split <;> simp [SMap.find?, *]

theorem SMap.find?_modify_ne (m : SMap α) {i j : Nat} (f : α → α) (h : j ≠ i) :
    SMap.find? (SMap.modify m i f) j = SMap.find? m j := by
  induction m with
  | nil => rfl
  | cons x r ih =>
    obtain ⟨k, w⟩ := x
    simp only [SMap.modify]
    split
    · rename_i hk
      subst hk
      simp [SMap.find?, Ne.symm h]
    · simp [SMap.find?, ih]

/-- Two changes at one key are one. -/
@[simp] theorem SMap.modify_modify (m : SMap α) (i : Nat) (f g : α → α) :
    SMap.modify (SMap.modify m i f) i g = SMap.modify m i fun x => g (f x) := by
  induction m with
  | nil => rfl
  | cons x r ih =>
    obtain ⟨k, w⟩ := x
    by_cases hk : k = i <;> simp [SMap.modify, hk, ih]

/-- A change at a key whose value is known sets a value. -/
theorem SMap.modify_known {m : SMap α} {i : Nat} {x : α} (h : SMap.find? m i = some x) (f : α → α) :
    SMap.modify m i f = SMap.modify m i fun _ => f x := by
  induction m with
  | nil => rfl
  | cons y r ih =>
    obtain ⟨k, w⟩ := y
    by_cases hk : k = i
    · simp_all [SMap.modify, SMap.find?]
    · simp_all [SMap.modify, SMap.find?]

theorem SMap.modify_id {m : SMap α} {i : Nat} {x : α} (h : SMap.find? m i = some x) : SMap.modify m i (fun _ => x) = m := by
  induction m with
  | nil => rfl
  | cons y r ih =>
    obtain ⟨k, w⟩ := y
    by_cases hk : k = i
    · simp_all [SMap.modify, SMap.find?]
    · simp_all [SMap.modify, SMap.find?]

@[simp] theorem SMap.getD_insert_self (m : SMap α) (i : Nat) (v d : α) : SMap.getD (SMap.insert m i v) i d = v := by
  simp [SMap.getD]

theorem SMap.getD_insert_ne (m : SMap α) {i j : Nat} (v d : α) (h : j ≠ i) :
    SMap.getD (SMap.insert m i v) j d = SMap.getD m j d := by
  simp [SMap.getD, SMap.find?_insert_ne m v h]

/-- A read after a write to the same key. -/
@[simp] theorem SMap.getD_put_self [DecidableEq α] (d : α) (m : SMap α) (i : Nat) (v : α) :
    SMap.getD (SMap.put d m i v) i d = v := by
  unfold SMap.put SMap.getD
  split <;> simp [*]

/-- A write leaves every other key alone. -/
theorem SMap.getD_put_ne [DecidableEq α] (d : α) (m : SMap α) {i j : Nat} (v : α) (h : j ≠ i) :
    SMap.getD (SMap.put d m i v) j d = SMap.getD m j d := by
  unfold SMap.put SMap.getD
  split
  · simp [SMap.find?_erase_ne m h]
  · simp [SMap.find?_insert_ne m v h]

/-! ### The canonical form -/

/-- Every key of the map is above k. -/
def SMap.above (k : Nat) (m : SMap α) : Prop := ∀ x ∈ m, k < x.1

theorem SMap.sorted_cons {k : Nat} {v : α} {r : SMap α} :
    SMap.sorted ((k, v) :: r) = true ↔ SMap.above k r ∧ SMap.sorted r = true := by
  induction r generalizing k v with
  | nil => simp [SMap.sorted, SMap.above]
  | cons x r ih =>
    obtain ⟨k', w⟩ := x
    simp only [SMap.sorted, Bool.and_eq_true, decide_eq_true_eq]
    constructor
    · rintro ⟨h, hs⟩
      refine ⟨?_, hs⟩
      intro y hy
      rcases List.mem_cons.1 hy with rfl | hy
      · exact h
      · exact Nat.lt_trans h ((ih.1 hs).1 y hy)
    · rintro ⟨h, hs⟩
      exact ⟨h (k', w) (by simp), hs⟩

theorem SMap.above_insert {k i : Nat} {v : α} {m : SMap α} (h : SMap.above k m) (hi : k < i) :
    SMap.above k (SMap.insert m i v) := by
  induction m with
  | nil => intro x hx; simp_all [SMap.insert]
  | cons y r ih =>
    obtain ⟨k', w⟩ := y
    have hr : SMap.above k r := fun x hx => h x (List.mem_cons_of_mem _ hx)
    have hk : k < k' := h (k', w) (by simp)
    intro x hx
    simp only [SMap.insert] at hx
    split at hx
    · rcases List.mem_cons.1 hx with rfl | hx
      · exact hi
      · exact hr x hx
    · split at hx
      · rcases List.mem_cons.1 hx with rfl | hx
        · exact hi
        · exact h x hx
      · rcases List.mem_cons.1 hx with rfl | hx
        · exact hk
        · exact ih hr x hx

theorem SMap.sorted_insert {m : SMap α} (i : Nat) (v : α) (h : SMap.sorted m = true) :
    SMap.sorted (SMap.insert m i v) = true := by
  induction m with
  | nil => rfl
  | cons y r ih =>
    obtain ⟨k, w⟩ := y
    obtain ⟨ha, hs⟩ := SMap.sorted_cons.1 h
    simp only [SMap.insert]
    split
    · rename_i hk
      subst hk
      exact SMap.sorted_cons.2 ⟨ha, hs⟩
    · split
      · rename_i hk
        refine SMap.sorted_cons.2 ⟨?_, h⟩
        intro x hx
        rcases List.mem_cons.1 hx with rfl | hx
        · exact hk
        · exact Nat.lt_trans hk (ha x hx)
      · exact SMap.sorted_cons.2 ⟨SMap.above_insert ha (by omega), ih hs⟩

theorem SMap.mem_erase {m : SMap α} {i : Nat} {x : Nat × α} (h : x ∈ SMap.erase m i) : x ∈ m := by
  induction m with
  | nil => simp [SMap.erase] at h
  | cons y r ih =>
    obtain ⟨k, w⟩ := y
    simp only [SMap.erase] at h
    split at h
    · exact List.mem_cons_of_mem _ (ih h)
    · rcases List.mem_cons.1 h with rfl | h
      · simp
      · exact List.mem_cons_of_mem _ (ih h)

theorem SMap.sorted_erase {m : SMap α} (i : Nat) (h : SMap.sorted m = true) : SMap.sorted (SMap.erase m i) = true := by
  induction m with
  | nil => rfl
  | cons y r ih =>
    obtain ⟨k, w⟩ := y
    obtain ⟨ha, hs⟩ := SMap.sorted_cons.1 h
    simp only [SMap.erase]
    split
    · exact ih hs
    · exact SMap.sorted_cons.2 ⟨fun x hx => ha x (SMap.mem_erase hx), ih hs⟩

theorem SMap.sorted_filter {m : SMap α} (p : Nat × α → Bool) (h : SMap.sorted m = true) : SMap.sorted (m.filter p) = true := by
  induction m with
  | nil => rfl
  | cons y r ih =>
    obtain ⟨k, w⟩ := y
    obtain ⟨ha, hs⟩ := SMap.sorted_cons.1 h
    simp only [List.filter]
    split
    · exact SMap.sorted_cons.2 ⟨fun x hx => ha x (List.mem_filter.1 hx).1, ih hs⟩
    · exact ih hs

theorem SMap.mem_insert {m : SMap α} {i : Nat} {v : α} {x : Nat × α} (h : x ∈ SMap.insert m i v) : x = (i, v) ∨ x ∈ m := by
  induction m with
  | nil => simpa [SMap.insert] using h
  | cons y r ih =>
    obtain ⟨k, w⟩ := y
    simp only [SMap.insert] at h
    split at h
    · rcases List.mem_cons.1 h with rfl | h
      · exact .inl rfl
      · exact .inr (List.mem_cons_of_mem _ h)
    · split at h
      · rcases List.mem_cons.1 h with rfl | h
        · exact .inl rfl
        · exact .inr h
      · rcases List.mem_cons.1 h with rfl | h
        · exact .inr (by simp)
        · exact (ih h).imp id (List.mem_cons_of_mem _)

end Sys2Proof.Machine
end

