-- ==== Sys2Proof/Laws/State.lean ====
section
/-! SUPPORT. One lemma for each field of State and each elementary update: what the update does not touch stays. -/
namespace Sys2Proof.Machine

@[simp] theorem State.modTeam_pkg (s : State) (t : Nat) (f : Team → Team) : (s.modTeam t f).pkg = s.pkg := rfl
@[simp] theorem State.modTeam_mem (s : State) (t : Nat) (f : Team → Team) : (s.modTeam t f).mem = s.mem := rfl
@[simp] theorem State.modTeam_poison (s : State) (t : Nat) (f : Team → Team) : (s.modTeam t f).poison = s.poison := rfl
@[simp] theorem State.modTeam_ctxs (s : State) (t : Nat) (f : Team → Team) : (s.modTeam t f).ctxs = s.ctxs := rfl
@[simp] theorem State.modTeam_parked (s : State) (t : Nat) (f : Team → Team) : (s.modTeam t f).parked = s.parked := rfl
@[simp] theorem State.modTeam_owners (s : State) (t : Nat) (f : Team → Team) : (s.modTeam t f).owners = s.owners := rfl
@[simp] theorem State.modTeam_homes (s : State) (t : Nat) (f : Team → Team) : (s.modTeam t f).homes = s.homes := rfl
@[simp] theorem State.modTeam_counts (s : State) (t : Nat) (f : Team → Team) : (s.modTeam t f).counts = s.counts := rfl
@[simp] theorem State.modTeam_queues (s : State) (t : Nat) (f : Team → Team) : (s.modTeam t f).queues = s.queues := rfl
@[simp] theorem State.modTeam_launches (s : State) (t : Nat) (f : Team → Team) : (s.modTeam t f).launches = s.launches := rfl
@[simp] theorem State.modTeam_contracts (s : State) (t : Nat) (f : Team → Team) : (s.modTeam t f).contracts = s.contracts := rfl
@[simp] theorem State.modTeam_cores (s : State) (t : Nat) (f : Team → Team) : (s.modTeam t f).cores = s.cores := rfl
@[simp] theorem State.modTeam_ectxs (s : State) (t : Nat) (f : Team → Team) : (s.modTeam t f).ectxs = s.ectxs := rfl
@[simp] theorem State.modTeam_seqs (s : State) (t : Nat) (f : Team → Team) : (s.modTeam t f).seqs = s.seqs := rfl
@[simp] theorem State.modTeam_tails (s : State) (t : Nat) (f : Team → Team) : (s.modTeam t f).tails = s.tails := rfl
@[simp] theorem State.modTeam_fab (s : State) (t : Nat) (f : Team → Team) : (s.modTeam t f).fab = s.fab := rfl
@[simp] theorem State.modTeam_corrected (s : State) (t : Nat) (f : Team → Team) : (s.modTeam t f).corrected = s.corrected := rfl
@[simp] theorem State.modTeam_latent (s : State) (t : Nat) (f : Team → Team) : (s.modTeam t f).latent = s.latent := rfl
@[simp] theorem State.modTeam_flips (s : State) (t : Nat) (f : Team → Team) : (s.modTeam t f).flips = s.flips := rfl
@[simp] theorem State.modTeam_l1 (s : State) (t : Nat) (f : Team → Team) : (s.modTeam t f).l1 = s.l1 := rfl
@[simp] theorem State.modTeam_icache (s : State) (t : Nat) (f : Team → Team) : (s.modTeam t f).icache = s.icache := rfl
@[simp] theorem State.modTeam_recent (s : State) (t : Nat) (f : Team → Team) : (s.modTeam t f).recent = s.recent := rfl
@[simp] theorem State.modTeam_agenda (s : State) (t : Nat) (f : Team → Team) : (s.modTeam t f).agenda = s.agenda := rfl
@[simp] theorem State.modTeam_ev (s : State) (t : Nat) (f : Team → Team) : (s.modTeam t f).ev = s.ev := rfl
@[simp] theorem State.modTeam_cur (s : State) (t : Nat) (f : Team → Team) : (s.modTeam t f).cur = s.cur := rfl
@[simp] theorem State.modTeam_stalls (s : State) (t : Nat) (f : Team → Team) : (s.modTeam t f).stalls = s.stalls := rfl
@[simp] theorem State.modTeam_ownNext (s : State) (t : Nat) (f : Team → Team) : (s.modTeam t f).ownNext = s.ownNext := rfl
@[simp] theorem State.modTeam_now (s : State) (t : Nat) (f : Team → Team) : (s.modTeam t f).now = s.now := rfl
@[simp] theorem State.modTeam_free (s : State) (t : Nat) (f : Team → Team) : (s.modTeam t f).free = s.free := rfl
@[simp] theorem State.modTeam_nextTeam (s : State) (t : Nat) (f : Team → Team) : (s.modTeam t f).nextTeam = s.nextTeam := rfl
@[simp] theorem State.modTeam_nextCtx (s : State) (t : Nat) (f : Team → Team) : (s.modTeam t f).nextCtx = s.nextCtx := rfl
@[simp] theorem State.modTeam_nextToken (s : State) (t : Nat) (f : Team → Team) : (s.modTeam t f).nextToken = s.nextToken := rfl
@[simp] theorem State.modTeam_nextOrd (s : State) (t : Nat) (f : Team → Team) : (s.modTeam t f).nextOrd = s.nextOrd := rfl
@[simp] theorem State.modTeam_issues (s : State) (t : Nat) (f : Team → Team) : (s.modTeam t f).issues = s.issues := rfl
@[simp] theorem State.modTeam_served (s : State) (t : Nat) (f : Team → Team) : (s.modTeam t f).served = s.served := rfl

@[simp] theorem State.modGroup_pkg (s : State) (t g : Nat) (f : Group → Group) : (s.modGroup t g f).pkg = s.pkg := rfl
@[simp] theorem State.modGroup_mem (s : State) (t g : Nat) (f : Group → Group) : (s.modGroup t g f).mem = s.mem := rfl
@[simp] theorem State.modGroup_poison (s : State) (t g : Nat) (f : Group → Group) : (s.modGroup t g f).poison = s.poison := rfl
@[simp] theorem State.modGroup_ctxs (s : State) (t g : Nat) (f : Group → Group) : (s.modGroup t g f).ctxs = s.ctxs := rfl
@[simp] theorem State.modGroup_parked (s : State) (t g : Nat) (f : Group → Group) : (s.modGroup t g f).parked = s.parked := rfl
@[simp] theorem State.modGroup_owners (s : State) (t g : Nat) (f : Group → Group) : (s.modGroup t g f).owners = s.owners := rfl
@[simp] theorem State.modGroup_homes (s : State) (t g : Nat) (f : Group → Group) : (s.modGroup t g f).homes = s.homes := rfl
@[simp] theorem State.modGroup_counts (s : State) (t g : Nat) (f : Group → Group) : (s.modGroup t g f).counts = s.counts := rfl
@[simp] theorem State.modGroup_queues (s : State) (t g : Nat) (f : Group → Group) : (s.modGroup t g f).queues = s.queues := rfl
@[simp] theorem State.modGroup_launches (s : State) (t g : Nat) (f : Group → Group) : (s.modGroup t g f).launches = s.launches := rfl
@[simp] theorem State.modGroup_contracts (s : State) (t g : Nat) (f : Group → Group) : (s.modGroup t g f).contracts = s.contracts := rfl
@[simp] theorem State.modGroup_cores (s : State) (t g : Nat) (f : Group → Group) : (s.modGroup t g f).cores = s.cores := rfl
@[simp] theorem State.modGroup_ectxs (s : State) (t g : Nat) (f : Group → Group) : (s.modGroup t g f).ectxs = s.ectxs := rfl
@[simp] theorem State.modGroup_seqs (s : State) (t g : Nat) (f : Group → Group) : (s.modGroup t g f).seqs = s.seqs := rfl
@[simp] theorem State.modGroup_tails (s : State) (t g : Nat) (f : Group → Group) : (s.modGroup t g f).tails = s.tails := rfl
@[simp] theorem State.modGroup_fab (s : State) (t g : Nat) (f : Group → Group) : (s.modGroup t g f).fab = s.fab := rfl
@[simp] theorem State.modGroup_corrected (s : State) (t g : Nat) (f : Group → Group) : (s.modGroup t g f).corrected = s.corrected := rfl
@[simp] theorem State.modGroup_latent (s : State) (t g : Nat) (f : Group → Group) : (s.modGroup t g f).latent = s.latent := rfl
@[simp] theorem State.modGroup_flips (s : State) (t g : Nat) (f : Group → Group) : (s.modGroup t g f).flips = s.flips := rfl
@[simp] theorem State.modGroup_l1 (s : State) (t g : Nat) (f : Group → Group) : (s.modGroup t g f).l1 = s.l1 := rfl
@[simp] theorem State.modGroup_icache (s : State) (t g : Nat) (f : Group → Group) : (s.modGroup t g f).icache = s.icache := rfl
@[simp] theorem State.modGroup_recent (s : State) (t g : Nat) (f : Group → Group) : (s.modGroup t g f).recent = s.recent := rfl
@[simp] theorem State.modGroup_agenda (s : State) (t g : Nat) (f : Group → Group) : (s.modGroup t g f).agenda = s.agenda := rfl
@[simp] theorem State.modGroup_ev (s : State) (t g : Nat) (f : Group → Group) : (s.modGroup t g f).ev = s.ev := rfl
@[simp] theorem State.modGroup_cur (s : State) (t g : Nat) (f : Group → Group) : (s.modGroup t g f).cur = s.cur := rfl
@[simp] theorem State.modGroup_stalls (s : State) (t g : Nat) (f : Group → Group) : (s.modGroup t g f).stalls = s.stalls := rfl
@[simp] theorem State.modGroup_ownNext (s : State) (t g : Nat) (f : Group → Group) : (s.modGroup t g f).ownNext = s.ownNext := rfl
@[simp] theorem State.modGroup_now (s : State) (t g : Nat) (f : Group → Group) : (s.modGroup t g f).now = s.now := rfl
@[simp] theorem State.modGroup_free (s : State) (t g : Nat) (f : Group → Group) : (s.modGroup t g f).free = s.free := rfl
@[simp] theorem State.modGroup_nextTeam (s : State) (t g : Nat) (f : Group → Group) : (s.modGroup t g f).nextTeam = s.nextTeam := rfl
@[simp] theorem State.modGroup_nextCtx (s : State) (t g : Nat) (f : Group → Group) : (s.modGroup t g f).nextCtx = s.nextCtx := rfl
@[simp] theorem State.modGroup_nextToken (s : State) (t g : Nat) (f : Group → Group) : (s.modGroup t g f).nextToken = s.nextToken := rfl
@[simp] theorem State.modGroup_nextOrd (s : State) (t g : Nat) (f : Group → Group) : (s.modGroup t g f).nextOrd = s.nextOrd := rfl
@[simp] theorem State.modGroup_issues (s : State) (t g : Nat) (f : Group → Group) : (s.modGroup t g f).issues = s.issues := rfl
@[simp] theorem State.modGroup_served (s : State) (t g : Nat) (f : Group → Group) : (s.modGroup t g f).served = s.served := rfl

@[simp] theorem State.modSplit_pkg (s : State) (t g i : Nat) (f : Split → Split) : (s.modSplit t g i f).pkg = s.pkg := rfl
@[simp] theorem State.modSplit_mem (s : State) (t g i : Nat) (f : Split → Split) : (s.modSplit t g i f).mem = s.mem := rfl
@[simp] theorem State.modSplit_poison (s : State) (t g i : Nat) (f : Split → Split) : (s.modSplit t g i f).poison = s.poison := rfl
@[simp] theorem State.modSplit_ctxs (s : State) (t g i : Nat) (f : Split → Split) : (s.modSplit t g i f).ctxs = s.ctxs := rfl
@[simp] theorem State.modSplit_parked (s : State) (t g i : Nat) (f : Split → Split) : (s.modSplit t g i f).parked = s.parked := rfl
@[simp] theorem State.modSplit_owners (s : State) (t g i : Nat) (f : Split → Split) : (s.modSplit t g i f).owners = s.owners := rfl
@[simp] theorem State.modSplit_homes (s : State) (t g i : Nat) (f : Split → Split) : (s.modSplit t g i f).homes = s.homes := rfl
@[simp] theorem State.modSplit_counts (s : State) (t g i : Nat) (f : Split → Split) : (s.modSplit t g i f).counts = s.counts := rfl
@[simp] theorem State.modSplit_queues (s : State) (t g i : Nat) (f : Split → Split) : (s.modSplit t g i f).queues = s.queues := rfl
@[simp] theorem State.modSplit_launches (s : State) (t g i : Nat) (f : Split → Split) : (s.modSplit t g i f).launches = s.launches := rfl
@[simp] theorem State.modSplit_contracts (s : State) (t g i : Nat) (f : Split → Split) : (s.modSplit t g i f).contracts = s.contracts := rfl
@[simp] theorem State.modSplit_cores (s : State) (t g i : Nat) (f : Split → Split) : (s.modSplit t g i f).cores = s.cores := rfl
@[simp] theorem State.modSplit_ectxs (s : State) (t g i : Nat) (f : Split → Split) : (s.modSplit t g i f).ectxs = s.ectxs := rfl
@[simp] theorem State.modSplit_seqs (s : State) (t g i : Nat) (f : Split → Split) : (s.modSplit t g i f).seqs = s.seqs := rfl
@[simp] theorem State.modSplit_tails (s : State) (t g i : Nat) (f : Split → Split) : (s.modSplit t g i f).tails = s.tails := rfl
@[simp] theorem State.modSplit_fab (s : State) (t g i : Nat) (f : Split → Split) : (s.modSplit t g i f).fab = s.fab := rfl
@[simp] theorem State.modSplit_corrected (s : State) (t g i : Nat) (f : Split → Split) : (s.modSplit t g i f).corrected = s.corrected := rfl
@[simp] theorem State.modSplit_latent (s : State) (t g i : Nat) (f : Split → Split) : (s.modSplit t g i f).latent = s.latent := rfl
@[simp] theorem State.modSplit_flips (s : State) (t g i : Nat) (f : Split → Split) : (s.modSplit t g i f).flips = s.flips := rfl
@[simp] theorem State.modSplit_l1 (s : State) (t g i : Nat) (f : Split → Split) : (s.modSplit t g i f).l1 = s.l1 := rfl
@[simp] theorem State.modSplit_icache (s : State) (t g i : Nat) (f : Split → Split) : (s.modSplit t g i f).icache = s.icache := rfl
@[simp] theorem State.modSplit_recent (s : State) (t g i : Nat) (f : Split → Split) : (s.modSplit t g i f).recent = s.recent := rfl
@[simp] theorem State.modSplit_agenda (s : State) (t g i : Nat) (f : Split → Split) : (s.modSplit t g i f).agenda = s.agenda := rfl
@[simp] theorem State.modSplit_ev (s : State) (t g i : Nat) (f : Split → Split) : (s.modSplit t g i f).ev = s.ev := rfl
@[simp] theorem State.modSplit_cur (s : State) (t g i : Nat) (f : Split → Split) : (s.modSplit t g i f).cur = s.cur := rfl
@[simp] theorem State.modSplit_stalls (s : State) (t g i : Nat) (f : Split → Split) : (s.modSplit t g i f).stalls = s.stalls := rfl
@[simp] theorem State.modSplit_ownNext (s : State) (t g i : Nat) (f : Split → Split) : (s.modSplit t g i f).ownNext = s.ownNext := rfl
@[simp] theorem State.modSplit_now (s : State) (t g i : Nat) (f : Split → Split) : (s.modSplit t g i f).now = s.now := rfl
@[simp] theorem State.modSplit_free (s : State) (t g i : Nat) (f : Split → Split) : (s.modSplit t g i f).free = s.free := rfl
@[simp] theorem State.modSplit_nextTeam (s : State) (t g i : Nat) (f : Split → Split) : (s.modSplit t g i f).nextTeam = s.nextTeam := rfl
@[simp] theorem State.modSplit_nextCtx (s : State) (t g i : Nat) (f : Split → Split) : (s.modSplit t g i f).nextCtx = s.nextCtx := rfl
@[simp] theorem State.modSplit_nextToken (s : State) (t g i : Nat) (f : Split → Split) : (s.modSplit t g i f).nextToken = s.nextToken := rfl
@[simp] theorem State.modSplit_nextOrd (s : State) (t g i : Nat) (f : Split → Split) : (s.modSplit t g i f).nextOrd = s.nextOrd := rfl
@[simp] theorem State.modSplit_issues (s : State) (t g i : Nat) (f : Split → Split) : (s.modSplit t g i f).issues = s.issues := rfl
@[simp] theorem State.modSplit_served (s : State) (t g i : Nat) (f : Split → Split) : (s.modSplit t g i f).served = s.served := rfl

@[simp] theorem State.modCore_pkg (s : State) (c : Nat) (f : Core → Core) : (s.modCore c f).pkg = s.pkg := rfl
@[simp] theorem State.modCore_mem (s : State) (c : Nat) (f : Core → Core) : (s.modCore c f).mem = s.mem := rfl
@[simp] theorem State.modCore_poison (s : State) (c : Nat) (f : Core → Core) : (s.modCore c f).poison = s.poison := rfl
@[simp] theorem State.modCore_ctxs (s : State) (c : Nat) (f : Core → Core) : (s.modCore c f).ctxs = s.ctxs := rfl
@[simp] theorem State.modCore_parked (s : State) (c : Nat) (f : Core → Core) : (s.modCore c f).parked = s.parked := rfl
@[simp] theorem State.modCore_owners (s : State) (c : Nat) (f : Core → Core) : (s.modCore c f).owners = s.owners := rfl
@[simp] theorem State.modCore_homes (s : State) (c : Nat) (f : Core → Core) : (s.modCore c f).homes = s.homes := rfl
@[simp] theorem State.modCore_counts (s : State) (c : Nat) (f : Core → Core) : (s.modCore c f).counts = s.counts := rfl
@[simp] theorem State.modCore_queues (s : State) (c : Nat) (f : Core → Core) : (s.modCore c f).queues = s.queues := rfl
@[simp] theorem State.modCore_launches (s : State) (c : Nat) (f : Core → Core) : (s.modCore c f).launches = s.launches := rfl
@[simp] theorem State.modCore_contracts (s : State) (c : Nat) (f : Core → Core) : (s.modCore c f).contracts = s.contracts := rfl
@[simp] theorem State.modCore_teams (s : State) (c : Nat) (f : Core → Core) : (s.modCore c f).teams = s.teams := rfl
@[simp] theorem State.modCore_ectxs (s : State) (c : Nat) (f : Core → Core) : (s.modCore c f).ectxs = s.ectxs := rfl
@[simp] theorem State.modCore_seqs (s : State) (c : Nat) (f : Core → Core) : (s.modCore c f).seqs = s.seqs := rfl
@[simp] theorem State.modCore_tails (s : State) (c : Nat) (f : Core → Core) : (s.modCore c f).tails = s.tails := rfl
@[simp] theorem State.modCore_fab (s : State) (c : Nat) (f : Core → Core) : (s.modCore c f).fab = s.fab := rfl
@[simp] theorem State.modCore_corrected (s : State) (c : Nat) (f : Core → Core) : (s.modCore c f).corrected = s.corrected := rfl
@[simp] theorem State.modCore_latent (s : State) (c : Nat) (f : Core → Core) : (s.modCore c f).latent = s.latent := rfl
@[simp] theorem State.modCore_flips (s : State) (c : Nat) (f : Core → Core) : (s.modCore c f).flips = s.flips := rfl
@[simp] theorem State.modCore_l1 (s : State) (c : Nat) (f : Core → Core) : (s.modCore c f).l1 = s.l1 := rfl
@[simp] theorem State.modCore_icache (s : State) (c : Nat) (f : Core → Core) : (s.modCore c f).icache = s.icache := rfl
@[simp] theorem State.modCore_recent (s : State) (c : Nat) (f : Core → Core) : (s.modCore c f).recent = s.recent := rfl
@[simp] theorem State.modCore_agenda (s : State) (c : Nat) (f : Core → Core) : (s.modCore c f).agenda = s.agenda := rfl
@[simp] theorem State.modCore_ev (s : State) (c : Nat) (f : Core → Core) : (s.modCore c f).ev = s.ev := rfl
@[simp] theorem State.modCore_cur (s : State) (c : Nat) (f : Core → Core) : (s.modCore c f).cur = s.cur := rfl
@[simp] theorem State.modCore_stalls (s : State) (c : Nat) (f : Core → Core) : (s.modCore c f).stalls = s.stalls := rfl
@[simp] theorem State.modCore_ownNext (s : State) (c : Nat) (f : Core → Core) : (s.modCore c f).ownNext = s.ownNext := rfl
@[simp] theorem State.modCore_now (s : State) (c : Nat) (f : Core → Core) : (s.modCore c f).now = s.now := rfl
@[simp] theorem State.modCore_free (s : State) (c : Nat) (f : Core → Core) : (s.modCore c f).free = s.free := rfl
@[simp] theorem State.modCore_nextTeam (s : State) (c : Nat) (f : Core → Core) : (s.modCore c f).nextTeam = s.nextTeam := rfl
@[simp] theorem State.modCore_nextCtx (s : State) (c : Nat) (f : Core → Core) : (s.modCore c f).nextCtx = s.nextCtx := rfl
@[simp] theorem State.modCore_nextToken (s : State) (c : Nat) (f : Core → Core) : (s.modCore c f).nextToken = s.nextToken := rfl
@[simp] theorem State.modCore_nextOrd (s : State) (c : Nat) (f : Core → Core) : (s.modCore c f).nextOrd = s.nextOrd := rfl
@[simp] theorem State.modCore_issues (s : State) (c : Nat) (f : Core → Core) : (s.modCore c f).issues = s.issues := rfl
@[simp] theorem State.modCore_served (s : State) (c : Nat) (f : Core → Core) : (s.modCore c f).served = s.served := rfl

@[simp] theorem State.modCtx_pkg (s : State) (c : Nat) (f : ECtx → ECtx) : (s.modCtx c f).pkg = s.pkg := rfl
@[simp] theorem State.modCtx_mem (s : State) (c : Nat) (f : ECtx → ECtx) : (s.modCtx c f).mem = s.mem := rfl
@[simp] theorem State.modCtx_poison (s : State) (c : Nat) (f : ECtx → ECtx) : (s.modCtx c f).poison = s.poison := rfl
@[simp] theorem State.modCtx_ctxs (s : State) (c : Nat) (f : ECtx → ECtx) : (s.modCtx c f).ctxs = s.ctxs := rfl
@[simp] theorem State.modCtx_parked (s : State) (c : Nat) (f : ECtx → ECtx) : (s.modCtx c f).parked = s.parked := rfl
@[simp] theorem State.modCtx_owners (s : State) (c : Nat) (f : ECtx → ECtx) : (s.modCtx c f).owners = s.owners := rfl
@[simp] theorem State.modCtx_homes (s : State) (c : Nat) (f : ECtx → ECtx) : (s.modCtx c f).homes = s.homes := rfl
@[simp] theorem State.modCtx_counts (s : State) (c : Nat) (f : ECtx → ECtx) : (s.modCtx c f).counts = s.counts := rfl
@[simp] theorem State.modCtx_queues (s : State) (c : Nat) (f : ECtx → ECtx) : (s.modCtx c f).queues = s.queues := rfl
@[simp] theorem State.modCtx_launches (s : State) (c : Nat) (f : ECtx → ECtx) : (s.modCtx c f).launches = s.launches := rfl
@[simp] theorem State.modCtx_contracts (s : State) (c : Nat) (f : ECtx → ECtx) : (s.modCtx c f).contracts = s.contracts := rfl
@[simp] theorem State.modCtx_teams (s : State) (c : Nat) (f : ECtx → ECtx) : (s.modCtx c f).teams = s.teams := rfl
@[simp] theorem State.modCtx_cores (s : State) (c : Nat) (f : ECtx → ECtx) : (s.modCtx c f).cores = s.cores := rfl
@[simp] theorem State.modCtx_seqs (s : State) (c : Nat) (f : ECtx → ECtx) : (s.modCtx c f).seqs = s.seqs := rfl
@[simp] theorem State.modCtx_tails (s : State) (c : Nat) (f : ECtx → ECtx) : (s.modCtx c f).tails = s.tails := rfl
@[simp] theorem State.modCtx_fab (s : State) (c : Nat) (f : ECtx → ECtx) : (s.modCtx c f).fab = s.fab := rfl
@[simp] theorem State.modCtx_corrected (s : State) (c : Nat) (f : ECtx → ECtx) : (s.modCtx c f).corrected = s.corrected := rfl
@[simp] theorem State.modCtx_latent (s : State) (c : Nat) (f : ECtx → ECtx) : (s.modCtx c f).latent = s.latent := rfl
@[simp] theorem State.modCtx_flips (s : State) (c : Nat) (f : ECtx → ECtx) : (s.modCtx c f).flips = s.flips := rfl
@[simp] theorem State.modCtx_l1 (s : State) (c : Nat) (f : ECtx → ECtx) : (s.modCtx c f).l1 = s.l1 := rfl
@[simp] theorem State.modCtx_icache (s : State) (c : Nat) (f : ECtx → ECtx) : (s.modCtx c f).icache = s.icache := rfl
@[simp] theorem State.modCtx_recent (s : State) (c : Nat) (f : ECtx → ECtx) : (s.modCtx c f).recent = s.recent := rfl
@[simp] theorem State.modCtx_agenda (s : State) (c : Nat) (f : ECtx → ECtx) : (s.modCtx c f).agenda = s.agenda := rfl
@[simp] theorem State.modCtx_ev (s : State) (c : Nat) (f : ECtx → ECtx) : (s.modCtx c f).ev = s.ev := rfl
@[simp] theorem State.modCtx_cur (s : State) (c : Nat) (f : ECtx → ECtx) : (s.modCtx c f).cur = s.cur := rfl
@[simp] theorem State.modCtx_stalls (s : State) (c : Nat) (f : ECtx → ECtx) : (s.modCtx c f).stalls = s.stalls := rfl
@[simp] theorem State.modCtx_ownNext (s : State) (c : Nat) (f : ECtx → ECtx) : (s.modCtx c f).ownNext = s.ownNext := rfl
@[simp] theorem State.modCtx_now (s : State) (c : Nat) (f : ECtx → ECtx) : (s.modCtx c f).now = s.now := rfl
@[simp] theorem State.modCtx_free (s : State) (c : Nat) (f : ECtx → ECtx) : (s.modCtx c f).free = s.free := rfl
@[simp] theorem State.modCtx_nextTeam (s : State) (c : Nat) (f : ECtx → ECtx) : (s.modCtx c f).nextTeam = s.nextTeam := rfl
@[simp] theorem State.modCtx_nextCtx (s : State) (c : Nat) (f : ECtx → ECtx) : (s.modCtx c f).nextCtx = s.nextCtx := rfl
@[simp] theorem State.modCtx_nextToken (s : State) (c : Nat) (f : ECtx → ECtx) : (s.modCtx c f).nextToken = s.nextToken := rfl
@[simp] theorem State.modCtx_nextOrd (s : State) (c : Nat) (f : ECtx → ECtx) : (s.modCtx c f).nextOrd = s.nextOrd := rfl
@[simp] theorem State.modCtx_issues (s : State) (c : Nat) (f : ECtx → ECtx) : (s.modCtx c f).issues = s.issues := rfl
@[simp] theorem State.modCtx_served (s : State) (c : Nat) (f : ECtx → ECtx) : (s.modCtx c f).served = s.served := rfl

@[simp] theorem State.store_pkg (s : State) (a : Nat) (bs : List Byte) : (s.store a bs).pkg = s.pkg := rfl
@[simp] theorem State.store_ctxs (s : State) (a : Nat) (bs : List Byte) : (s.store a bs).ctxs = s.ctxs := rfl
@[simp] theorem State.store_parked (s : State) (a : Nat) (bs : List Byte) : (s.store a bs).parked = s.parked := rfl
@[simp] theorem State.store_owners (s : State) (a : Nat) (bs : List Byte) : (s.store a bs).owners = s.owners := rfl
@[simp] theorem State.store_homes (s : State) (a : Nat) (bs : List Byte) : (s.store a bs).homes = s.homes := rfl
@[simp] theorem State.store_counts (s : State) (a : Nat) (bs : List Byte) : (s.store a bs).counts = s.counts := rfl
@[simp] theorem State.store_queues (s : State) (a : Nat) (bs : List Byte) : (s.store a bs).queues = s.queues := rfl
@[simp] theorem State.store_launches (s : State) (a : Nat) (bs : List Byte) : (s.store a bs).launches = s.launches := rfl
@[simp] theorem State.store_contracts (s : State) (a : Nat) (bs : List Byte) : (s.store a bs).contracts = s.contracts := rfl
@[simp] theorem State.store_teams (s : State) (a : Nat) (bs : List Byte) : (s.store a bs).teams = s.teams := rfl
@[simp] theorem State.store_cores (s : State) (a : Nat) (bs : List Byte) : (s.store a bs).cores = s.cores := rfl
@[simp] theorem State.store_ectxs (s : State) (a : Nat) (bs : List Byte) : (s.store a bs).ectxs = s.ectxs := rfl
@[simp] theorem State.store_seqs (s : State) (a : Nat) (bs : List Byte) : (s.store a bs).seqs = s.seqs := rfl
@[simp] theorem State.store_tails (s : State) (a : Nat) (bs : List Byte) : (s.store a bs).tails = s.tails := rfl
@[simp] theorem State.store_fab (s : State) (a : Nat) (bs : List Byte) : (s.store a bs).fab = s.fab := rfl
@[simp] theorem State.store_corrected (s : State) (a : Nat) (bs : List Byte) : (s.store a bs).corrected = s.corrected := rfl
@[simp] theorem State.store_flips (s : State) (a : Nat) (bs : List Byte) : (s.store a bs).flips = s.flips := rfl
@[simp] theorem State.store_icache (s : State) (a : Nat) (bs : List Byte) : (s.store a bs).icache = s.icache := rfl
@[simp] theorem State.store_recent (s : State) (a : Nat) (bs : List Byte) : (s.store a bs).recent = s.recent := rfl
@[simp] theorem State.store_agenda (s : State) (a : Nat) (bs : List Byte) : (s.store a bs).agenda = s.agenda := rfl
@[simp] theorem State.store_ev (s : State) (a : Nat) (bs : List Byte) : (s.store a bs).ev = s.ev := rfl
@[simp] theorem State.store_cur (s : State) (a : Nat) (bs : List Byte) : (s.store a bs).cur = s.cur := rfl
@[simp] theorem State.store_stalls (s : State) (a : Nat) (bs : List Byte) : (s.store a bs).stalls = s.stalls := rfl
@[simp] theorem State.store_ownNext (s : State) (a : Nat) (bs : List Byte) : (s.store a bs).ownNext = s.ownNext := rfl
@[simp] theorem State.store_now (s : State) (a : Nat) (bs : List Byte) : (s.store a bs).now = s.now := rfl
@[simp] theorem State.store_free (s : State) (a : Nat) (bs : List Byte) : (s.store a bs).free = s.free := rfl
@[simp] theorem State.store_nextTeam (s : State) (a : Nat) (bs : List Byte) : (s.store a bs).nextTeam = s.nextTeam := rfl
@[simp] theorem State.store_nextCtx (s : State) (a : Nat) (bs : List Byte) : (s.store a bs).nextCtx = s.nextCtx := rfl
@[simp] theorem State.store_nextToken (s : State) (a : Nat) (bs : List Byte) : (s.store a bs).nextToken = s.nextToken := rfl
@[simp] theorem State.store_nextOrd (s : State) (a : Nat) (bs : List Byte) : (s.store a bs).nextOrd = s.nextOrd := rfl
@[simp] theorem State.store_issues (s : State) (a : Nat) (bs : List Byte) : (s.store a bs).issues = s.issues := rfl
@[simp] theorem State.store_served (s : State) (a : Nat) (bs : List Byte) : (s.store a bs).served = s.served := rfl

@[simp] theorem State.storeAt_pkg (s : State) (bs : List (Nat × Byte)) : (s.storeAt bs).pkg = s.pkg := rfl
@[simp] theorem State.storeAt_ctxs (s : State) (bs : List (Nat × Byte)) : (s.storeAt bs).ctxs = s.ctxs := rfl
@[simp] theorem State.storeAt_parked (s : State) (bs : List (Nat × Byte)) : (s.storeAt bs).parked = s.parked := rfl
@[simp] theorem State.storeAt_owners (s : State) (bs : List (Nat × Byte)) : (s.storeAt bs).owners = s.owners := rfl
@[simp] theorem State.storeAt_homes (s : State) (bs : List (Nat × Byte)) : (s.storeAt bs).homes = s.homes := rfl
@[simp] theorem State.storeAt_counts (s : State) (bs : List (Nat × Byte)) : (s.storeAt bs).counts = s.counts := rfl
@[simp] theorem State.storeAt_queues (s : State) (bs : List (Nat × Byte)) : (s.storeAt bs).queues = s.queues := rfl
@[simp] theorem State.storeAt_launches (s : State) (bs : List (Nat × Byte)) : (s.storeAt bs).launches = s.launches := rfl
@[simp] theorem State.storeAt_contracts (s : State) (bs : List (Nat × Byte)) : (s.storeAt bs).contracts = s.contracts := rfl
@[simp] theorem State.storeAt_teams (s : State) (bs : List (Nat × Byte)) : (s.storeAt bs).teams = s.teams := rfl
@[simp] theorem State.storeAt_cores (s : State) (bs : List (Nat × Byte)) : (s.storeAt bs).cores = s.cores := rfl
@[simp] theorem State.storeAt_ectxs (s : State) (bs : List (Nat × Byte)) : (s.storeAt bs).ectxs = s.ectxs := rfl
@[simp] theorem State.storeAt_seqs (s : State) (bs : List (Nat × Byte)) : (s.storeAt bs).seqs = s.seqs := rfl
@[simp] theorem State.storeAt_tails (s : State) (bs : List (Nat × Byte)) : (s.storeAt bs).tails = s.tails := rfl
@[simp] theorem State.storeAt_fab (s : State) (bs : List (Nat × Byte)) : (s.storeAt bs).fab = s.fab := rfl
@[simp] theorem State.storeAt_corrected (s : State) (bs : List (Nat × Byte)) : (s.storeAt bs).corrected = s.corrected := rfl
@[simp] theorem State.storeAt_flips (s : State) (bs : List (Nat × Byte)) : (s.storeAt bs).flips = s.flips := rfl
@[simp] theorem State.storeAt_icache (s : State) (bs : List (Nat × Byte)) : (s.storeAt bs).icache = s.icache := rfl
@[simp] theorem State.storeAt_recent (s : State) (bs : List (Nat × Byte)) : (s.storeAt bs).recent = s.recent := rfl
@[simp] theorem State.storeAt_agenda (s : State) (bs : List (Nat × Byte)) : (s.storeAt bs).agenda = s.agenda := rfl
@[simp] theorem State.storeAt_ev (s : State) (bs : List (Nat × Byte)) : (s.storeAt bs).ev = s.ev := rfl
@[simp] theorem State.storeAt_cur (s : State) (bs : List (Nat × Byte)) : (s.storeAt bs).cur = s.cur := rfl
@[simp] theorem State.storeAt_stalls (s : State) (bs : List (Nat × Byte)) : (s.storeAt bs).stalls = s.stalls := rfl
@[simp] theorem State.storeAt_ownNext (s : State) (bs : List (Nat × Byte)) : (s.storeAt bs).ownNext = s.ownNext := rfl
@[simp] theorem State.storeAt_now (s : State) (bs : List (Nat × Byte)) : (s.storeAt bs).now = s.now := rfl
@[simp] theorem State.storeAt_free (s : State) (bs : List (Nat × Byte)) : (s.storeAt bs).free = s.free := rfl
@[simp] theorem State.storeAt_nextTeam (s : State) (bs : List (Nat × Byte)) : (s.storeAt bs).nextTeam = s.nextTeam := rfl
@[simp] theorem State.storeAt_nextCtx (s : State) (bs : List (Nat × Byte)) : (s.storeAt bs).nextCtx = s.nextCtx := rfl
@[simp] theorem State.storeAt_nextToken (s : State) (bs : List (Nat × Byte)) : (s.storeAt bs).nextToken = s.nextToken := rfl
@[simp] theorem State.storeAt_nextOrd (s : State) (bs : List (Nat × Byte)) : (s.storeAt bs).nextOrd = s.nextOrd := rfl
@[simp] theorem State.storeAt_issues (s : State) (bs : List (Nat × Byte)) : (s.storeAt bs).issues = s.issues := rfl
@[simp] theorem State.storeAt_served (s : State) (bs : List (Nat × Byte)) : (s.storeAt bs).served = s.served := rfl

@[simp] theorem State.taint_pkg (s : State) (w : Nat) : (s.taint w).pkg = s.pkg := rfl
@[simp] theorem State.taint_mem (s : State) (w : Nat) : (s.taint w).mem = s.mem := rfl
@[simp] theorem State.taint_ctxs (s : State) (w : Nat) : (s.taint w).ctxs = s.ctxs := rfl
@[simp] theorem State.taint_parked (s : State) (w : Nat) : (s.taint w).parked = s.parked := rfl
@[simp] theorem State.taint_owners (s : State) (w : Nat) : (s.taint w).owners = s.owners := rfl
@[simp] theorem State.taint_homes (s : State) (w : Nat) : (s.taint w).homes = s.homes := rfl
@[simp] theorem State.taint_counts (s : State) (w : Nat) : (s.taint w).counts = s.counts := rfl
@[simp] theorem State.taint_queues (s : State) (w : Nat) : (s.taint w).queues = s.queues := rfl
@[simp] theorem State.taint_launches (s : State) (w : Nat) : (s.taint w).launches = s.launches := rfl
@[simp] theorem State.taint_contracts (s : State) (w : Nat) : (s.taint w).contracts = s.contracts := rfl
@[simp] theorem State.taint_teams (s : State) (w : Nat) : (s.taint w).teams = s.teams := rfl
@[simp] theorem State.taint_cores (s : State) (w : Nat) : (s.taint w).cores = s.cores := rfl
@[simp] theorem State.taint_ectxs (s : State) (w : Nat) : (s.taint w).ectxs = s.ectxs := rfl
@[simp] theorem State.taint_seqs (s : State) (w : Nat) : (s.taint w).seqs = s.seqs := rfl
@[simp] theorem State.taint_tails (s : State) (w : Nat) : (s.taint w).tails = s.tails := rfl
@[simp] theorem State.taint_fab (s : State) (w : Nat) : (s.taint w).fab = s.fab := rfl
@[simp] theorem State.taint_corrected (s : State) (w : Nat) : (s.taint w).corrected = s.corrected := rfl
@[simp] theorem State.taint_latent (s : State) (w : Nat) : (s.taint w).latent = s.latent := rfl
@[simp] theorem State.taint_flips (s : State) (w : Nat) : (s.taint w).flips = s.flips := rfl
@[simp] theorem State.taint_l1 (s : State) (w : Nat) : (s.taint w).l1 = s.l1 := rfl
@[simp] theorem State.taint_icache (s : State) (w : Nat) : (s.taint w).icache = s.icache := rfl
@[simp] theorem State.taint_recent (s : State) (w : Nat) : (s.taint w).recent = s.recent := rfl
@[simp] theorem State.taint_agenda (s : State) (w : Nat) : (s.taint w).agenda = s.agenda := rfl
@[simp] theorem State.taint_ev (s : State) (w : Nat) : (s.taint w).ev = s.ev := rfl
@[simp] theorem State.taint_cur (s : State) (w : Nat) : (s.taint w).cur = s.cur := rfl
@[simp] theorem State.taint_stalls (s : State) (w : Nat) : (s.taint w).stalls = s.stalls := rfl
@[simp] theorem State.taint_ownNext (s : State) (w : Nat) : (s.taint w).ownNext = s.ownNext := rfl
@[simp] theorem State.taint_now (s : State) (w : Nat) : (s.taint w).now = s.now := rfl
@[simp] theorem State.taint_free (s : State) (w : Nat) : (s.taint w).free = s.free := rfl
@[simp] theorem State.taint_nextTeam (s : State) (w : Nat) : (s.taint w).nextTeam = s.nextTeam := rfl
@[simp] theorem State.taint_nextCtx (s : State) (w : Nat) : (s.taint w).nextCtx = s.nextCtx := rfl
@[simp] theorem State.taint_nextToken (s : State) (w : Nat) : (s.taint w).nextToken = s.nextToken := rfl
@[simp] theorem State.taint_nextOrd (s : State) (w : Nat) : (s.taint w).nextOrd = s.nextOrd := rfl
@[simp] theorem State.taint_issues (s : State) (w : Nat) : (s.taint w).issues = s.issues := rfl
@[simp] theorem State.taint_served (s : State) (w : Nat) : (s.taint w).served = s.served := rfl

@[simp] theorem State.setCur_pkg (s : State) (t g i : Nat) (pc : Dword) (cut : Option Nat) : (s.setCur t g i pc cut).pkg = s.pkg := rfl
@[simp] theorem State.setCur_mem (s : State) (t g i : Nat) (pc : Dword) (cut : Option Nat) : (s.setCur t g i pc cut).mem = s.mem := rfl
@[simp] theorem State.setCur_poison (s : State) (t g i : Nat) (pc : Dword) (cut : Option Nat) : (s.setCur t g i pc cut).poison = s.poison := rfl
@[simp] theorem State.setCur_ctxs (s : State) (t g i : Nat) (pc : Dword) (cut : Option Nat) : (s.setCur t g i pc cut).ctxs = s.ctxs := rfl
@[simp] theorem State.setCur_parked (s : State) (t g i : Nat) (pc : Dword) (cut : Option Nat) : (s.setCur t g i pc cut).parked = s.parked := rfl
@[simp] theorem State.setCur_owners (s : State) (t g i : Nat) (pc : Dword) (cut : Option Nat) : (s.setCur t g i pc cut).owners = s.owners := rfl
@[simp] theorem State.setCur_homes (s : State) (t g i : Nat) (pc : Dword) (cut : Option Nat) : (s.setCur t g i pc cut).homes = s.homes := rfl
@[simp] theorem State.setCur_counts (s : State) (t g i : Nat) (pc : Dword) (cut : Option Nat) : (s.setCur t g i pc cut).counts = s.counts := rfl
@[simp] theorem State.setCur_queues (s : State) (t g i : Nat) (pc : Dword) (cut : Option Nat) : (s.setCur t g i pc cut).queues = s.queues := rfl
@[simp] theorem State.setCur_launches (s : State) (t g i : Nat) (pc : Dword) (cut : Option Nat) : (s.setCur t g i pc cut).launches = s.launches := rfl
@[simp] theorem State.setCur_contracts (s : State) (t g i : Nat) (pc : Dword) (cut : Option Nat) : (s.setCur t g i pc cut).contracts = s.contracts := rfl
@[simp] theorem State.setCur_teams (s : State) (t g i : Nat) (pc : Dword) (cut : Option Nat) : (s.setCur t g i pc cut).teams = s.teams := rfl
@[simp] theorem State.setCur_cores (s : State) (t g i : Nat) (pc : Dword) (cut : Option Nat) : (s.setCur t g i pc cut).cores = s.cores := rfl
@[simp] theorem State.setCur_ectxs (s : State) (t g i : Nat) (pc : Dword) (cut : Option Nat) : (s.setCur t g i pc cut).ectxs = s.ectxs := rfl
@[simp] theorem State.setCur_seqs (s : State) (t g i : Nat) (pc : Dword) (cut : Option Nat) : (s.setCur t g i pc cut).seqs = s.seqs := rfl
@[simp] theorem State.setCur_tails (s : State) (t g i : Nat) (pc : Dword) (cut : Option Nat) : (s.setCur t g i pc cut).tails = s.tails := rfl
@[simp] theorem State.setCur_fab (s : State) (t g i : Nat) (pc : Dword) (cut : Option Nat) : (s.setCur t g i pc cut).fab = s.fab := rfl
@[simp] theorem State.setCur_corrected (s : State) (t g i : Nat) (pc : Dword) (cut : Option Nat) : (s.setCur t g i pc cut).corrected = s.corrected := rfl
@[simp] theorem State.setCur_latent (s : State) (t g i : Nat) (pc : Dword) (cut : Option Nat) : (s.setCur t g i pc cut).latent = s.latent := rfl
@[simp] theorem State.setCur_flips (s : State) (t g i : Nat) (pc : Dword) (cut : Option Nat) : (s.setCur t g i pc cut).flips = s.flips := rfl
@[simp] theorem State.setCur_l1 (s : State) (t g i : Nat) (pc : Dword) (cut : Option Nat) : (s.setCur t g i pc cut).l1 = s.l1 := rfl
@[simp] theorem State.setCur_icache (s : State) (t g i : Nat) (pc : Dword) (cut : Option Nat) : (s.setCur t g i pc cut).icache = s.icache := rfl
@[simp] theorem State.setCur_recent (s : State) (t g i : Nat) (pc : Dword) (cut : Option Nat) : (s.setCur t g i pc cut).recent = s.recent := rfl
@[simp] theorem State.setCur_agenda (s : State) (t g i : Nat) (pc : Dword) (cut : Option Nat) : (s.setCur t g i pc cut).agenda = s.agenda := rfl
@[simp] theorem State.setCur_ev (s : State) (t g i : Nat) (pc : Dword) (cut : Option Nat) : (s.setCur t g i pc cut).ev = s.ev := rfl
@[simp] theorem State.setCur_stalls (s : State) (t g i : Nat) (pc : Dword) (cut : Option Nat) : (s.setCur t g i pc cut).stalls = s.stalls := rfl
@[simp] theorem State.setCur_ownNext (s : State) (t g i : Nat) (pc : Dword) (cut : Option Nat) : (s.setCur t g i pc cut).ownNext = s.ownNext := rfl
@[simp] theorem State.setCur_now (s : State) (t g i : Nat) (pc : Dword) (cut : Option Nat) : (s.setCur t g i pc cut).now = s.now := rfl
@[simp] theorem State.setCur_free (s : State) (t g i : Nat) (pc : Dword) (cut : Option Nat) : (s.setCur t g i pc cut).free = s.free := rfl
@[simp] theorem State.setCur_nextTeam (s : State) (t g i : Nat) (pc : Dword) (cut : Option Nat) : (s.setCur t g i pc cut).nextTeam = s.nextTeam := rfl
@[simp] theorem State.setCur_nextCtx (s : State) (t g i : Nat) (pc : Dword) (cut : Option Nat) : (s.setCur t g i pc cut).nextCtx = s.nextCtx := rfl
@[simp] theorem State.setCur_nextToken (s : State) (t g i : Nat) (pc : Dword) (cut : Option Nat) : (s.setCur t g i pc cut).nextToken = s.nextToken := rfl
@[simp] theorem State.setCur_nextOrd (s : State) (t g i : Nat) (pc : Dword) (cut : Option Nat) : (s.setCur t g i pc cut).nextOrd = s.nextOrd := rfl
@[simp] theorem State.setCur_issues (s : State) (t g i : Nat) (pc : Dword) (cut : Option Nat) : (s.setCur t g i pc cut).issues = s.issues := rfl
@[simp] theorem State.setCur_served (s : State) (t g i : Nat) (pc : Dword) (cut : Option Nat) : (s.setCur t g i pc cut).served = s.served := rfl

end Sys2Proof.Machine
end

