-- ==== Sys2Proof/Laws/Issue.lean ====
section
/-! SUPPORT. What an instruction's shared frame does: finding its issuer, changing its group, going on. -/
namespace Sys2Proof.Machine

/-- What issuer? says of the state. -/
theorem issuer_find {s : State} {c : Issuer} (h : s.issuer? = some c) :
    s.teams.find? c.tid = some c.team ∧ c.team.groups.find? c.gid = some c.grp ∧ c.grp.splits.find? c.sid = some c.spl := by
  unfold State.issuer? at h
  split at h
  · simp at h
  · rename_i T hT
    split at h
    · simp at h
    · rename_i g hg
      split at h
      · simp at h
      · rename_i e he
        obtain rfl := Option.some.inj h
        exact ⟨hT, hg, he⟩

/-- With an issuer, an instruction answers the state its effect makes. -/
theorem withIssuer_eq {s : State} {c : Issuer} (h : s.issuer? = some c) (f : Issuer → State) : withIssuer s f = .next (f c) := by
  simp [withIssuer, h]

@[simp] theorem withIssuer_none {s : State} (h : s.issuer? = none) (f : Issuer → State) : withIssuer s f = .refused .noIssuer := by
  simp [withIssuer, h]

@[simp] theorem modTeam_modTeam (s : State) (t : Nat) (f g : Team → Team) :
    (s.modTeam t f).modTeam t g = s.modTeam t fun T => g (f T) := by
  simp [State.modTeam]

@[simp] theorem modGroup_modGroup (s : State) (t g : Nat) (f h : Group → Group) :
    (s.modGroup t g f).modGroup t g h = s.modGroup t g fun G => h (f G) := by
  simp [State.modGroup, Team.modGroup]

/-- A change to the issuing group sets it to what it becomes. -/
theorem modGroup_known {s : State} {c : Issuer} (h : s.issuer? = some c) (f : Group → Group) :
    s.modGroup c.tid c.gid f = s.modGroup c.tid c.gid fun _ => f c.grp := by
  obtain ⟨hT, hg, -⟩ := issuer_find h
  unfold State.modGroup State.modTeam Team.modGroup
  rw [SMap.modify_known hT, SMap.modify_known hT (f := fun T => { T with groups := T.groups.modify c.gid fun _ => f c.grp })]
  rw [SMap.modify_known hg]

theorem count_steady {s : State} {c : Issuer} (hr : c.team.st.isHalting = false) (hp : c.spl.prog = none) :
    c.count s = { s with issues := s.issues + 1 }.modGroup c.tid c.gid fun g =>
      { g with lastIssue := s.issues + 1, issued := if g.saved.isSome then g.issued else g.issued + 1 } := by
  simp [Issuer.count, Group.issue, hr, hp]

/-- Going on at pc after a change of the group. -/
theorem goto_becomes {s : State} {c : Issuer} (hi : Issues s c) (pc : Dword) (f : Group → Group) :
    c.goto pc (s.modGroup c.tid c.gid f) = s.becomes c (c.advanced s pc (f c.grp)) := by
  have h := hi.issuer
  have key : c.goto pc (s.modGroup c.tid c.gid f) =
      { s with issues := s.issues + 1 }.modGroup c.tid c.gid fun g => c.advanced s pc (f g) := by
    unfold Issuer.goto
    rw [count_steady hi.steady hi.fresh]
    simp only [State.modGroup, State.modTeam, Team.modGroup, SMap.modify_modify, Issuer.advanced, Group.modSplit]
    rfl
  rw [key]
  have h' : ({ s with issues := s.issues + 1 } : State).issuer? = some c := by simpa [State.issuer?] using h
  rw [modGroup_known h']
  rfl

/-- Finishing after a change of the group. -/
theorem finish_becomes {s : State} {c : Issuer} (hi : Issues s c) (f : Group → Group) :
    c.finish (s.modGroup c.tid c.gid f) = s.becomes c (c.advanced s c.next (f c.grp)) := by
  simpa [Issuer.finish, hi.fresh] using goto_becomes hi c.next f

theorem modGroup_id {s : State} {c : Issuer} (h : s.issuer? = some c) : s.modGroup c.tid c.gid (fun G => G) = s := by
  obtain ⟨hT, hg, -⟩ := issuer_find h
  unfold State.modGroup State.modTeam Team.modGroup
  rw [SMap.modify_known hT, SMap.modify_known hg, SMap.modify_id hg, SMap.modify_id hT]

/-- Finishing without any change. -/
theorem finish_plain {s : State} {c : Issuer} (hi : Issues s c) : c.finish s = s.becomes c (c.advanced s c.next c.grp) := by
  have := finish_becomes hi (fun G => G)
  rwa [modGroup_id hi.issuer] at this

/-- Going on without any change. -/
theorem goto_plain {s : State} {c : Issuer} (hi : Issues s c) (pc : Dword) : c.goto pc s = s.becomes c (c.advanced s pc c.grp) := by
  have := goto_becomes hi pc (fun G => G)
  rwa [modGroup_id hi.issuer] at this

/-- A group word that nothing holds back does its effect. -/
theorem groupWord_ready {s : State} {c : Issuer} {reads writes : List Nat} (h : s.issuer? = some c)
    (hw : WordReady c reads writes) (f : Issuer → State) : groupWord reads writes s f = .next (f c) := by
  rw [groupWord, groupWordAfter, withIssuer_eq h]
  simp only [hw.settled, hw.clean, hw.idle, Bool.false_eq_true, if_false]

/-- A poisoned source of a group word raises ECC (R243). -/
theorem groupWord_ecc {s : State} {c : Issuer} {reads writes : List Nat} (h : s.issuer? = some c)
    (hs : reads.any c.grp.sComing = false) (hb : reads.any c.grp.sbad.contains = true) (f : Issuer → State) : groupWord reads writes s f = .next (c.raise .ecc s) := by
  rw [groupWord, groupWordAfter, withIssuer_eq h]
  simp only [hs, hb, Bool.false_eq_true, if_false, if_true]

/-- S(d) := f, then the next instruction. -/
theorem setWord_ready {s : State} {c : Issuer} (hi : Issues s c) {reads : List Nat} {d : BitVec 6}
    (hw : WordReady c reads [d.toNat]) (f : Group → Word) :
    setWord reads d f s = .next (s.becomes c (c.advanced s c.next (c.grp.setS d.toNat (f c.grp)))) := by
  rw [setWord, groupWord_ready hi.issuer hw, finish_becomes hi]

/-! ### Lane words -/

theorem src_fresh {c : Issuer} (h : c.spl.prog = none) (n : Nat) : c.src n = c.grp.v.getD n VReg.zero := by
  simp [Issuer.src, h]

theorem from_fresh {c : Issuer} (h : c.spl.prog = none) : c.from = 0 := by simp [Issuer.from, h]

theorem fromLane_zero (m : Mask) : fromLane m 0 = m := by
  have h : ~~~(BitVec.ofNat 32 (2 ^ 0 - 1)) = BitVec.allOnes 32 := by decide
  rw [fromLane, h, BitVec.and_allOnes]

/-- A lane word whose split has no active lane does nothing (R14). -/
theorem laneStart_off {s : State} {c : Issuer} (hi : Issues s c) {legal : Fmt → Bool} {dsts sreads sdsts : List Nat}
    {go : Issuer → State} (hl : legal c.fmt = true)
    (hd : (dsts.any c.grp.vBusy || sreads.any c.grp.sComing || sdsts.any fun n => c.grp.sBusy n || c.grp.sHeld n) = false) (ha : c.active = 0) :
    laneStart legal dsts sreads sdsts s go = .next (s.becomes c (c.advanced s c.next c.grp)) := by
  rw [laneStart, withIssuer_eq hi.issuer]
  simp only [hi.fresh, Option.isSome_none, hl, hd, ha, Bool.not_true, Bool.false_eq_true, if_false, if_true, finish_plain hi]

/-- A lane word that nothing holds back starts its walk. -/
theorem laneStart_go {s : State} {c : Issuer} (hi : Issues s c) {legal : Fmt → Bool} {srcs dsts sreads sdsts : List Nat}
    {go : Issuer → State} (hl : legal c.fmt = true) (hr : LaneReady s c srcs dsts) (hq : sreads.any c.grp.sComing = false)
    (hs : (sdsts.any fun n => c.grp.sBusy n || c.grp.sHeld n) = false) : laneStart legal dsts sreads sdsts s go = .next (go c) := by
  rw [laneStart, withIssuer_eq hi.issuer]
  simp only [hi.fresh, Option.isSome_none, hl, hr.idle, hq, hs, hr.active, hr.room, Bool.not_true, Bool.or_false, Bool.false_eq_true, if_false]

/-- A reserved format code is ILLEGAL (R26). -/
theorem laneStart_illegal {s : State} {c : Issuer} (hi : Issues s c) {legal : Fmt → Bool} {dsts sreads sdsts : List Nat}
    {go : Issuer → State} (hl : legal c.fmt = false) : laneStart legal dsts sreads sdsts s go = .next (c.raise .illegal s) := by
  rw [laneStart, withIssuer_eq hi.issuer]
  simp only [hi.fresh, Option.isSome_none, Bool.false_eq_true, if_false, hl, Bool.not_false, if_true]

theorem cutAt_whole {c : Issuer} (h : c.cut = none) : c.cutAt = fun _ => false := by
  funext k
  simp [Issuer.cutAt, h]

/-- A walk that is not interrupted and meets no poison does not stop. -/
theorem stopAt_clean {todo bad : Mask} (h : bad &&& todo = 0) : stopAt (fun _ => false) todo bad = none := by
  have clean : ∀ k ∈ todo.lanes, bad.has k = false := by
    intro k hk
    have hb := congrArg (fun m : Mask => m.getLsbD k) h
    have ht : todo.getLsbD k = true := by simpa [Mask.lanes, Mask.has] using (List.mem_filter.1 hk).2
    simpa [Mask.has, ht] using hb
  have : todo.lanes.find? (fun k => false || bad.has k) = none := List.find?_eq_none.2 fun k hk => by simp [clean k hk]
  simp only [stopAt, this, Option.map_none]

theorem lane_write (r : VReg) (m : Mask) (f : Nat → Word) {k : Nat} (h : k < 32) :
    (r.write m f).lane k = if m.has k then f k else r.lane k := by
  simp [VReg.lane, VReg.write, Mask.has, h]

/-- One pass of a lane word that nothing holds back: its destinations, and the names it frees. -/
theorem laneF_ready {s : State} {c : Issuer} (hi : Issues s c) {legal : Fmt → Bool} {srcs last dsts : List Nat}
    {f : Issuer → Nat → (Nat → Word) → List Word} (hl : legal c.fmt = true) (hr : LaneReady s c srcs dsts) :
    laneF legal srcs last dsts f s = .next (s.becomes c (c.advanced s c.next
      (c.grp.finishMap last (dsts.mapIdx fun i n =>
          (n, (c.dest last n).write c.active fun k => (f c k fun n => c.lane n k).getD i 0))))) := by
  rw [laneF, laneStart_go hi hl hr rfl rfl]
  simp only [from_fresh hi.fresh, fromLane_zero, cutAt_whole hi.whole, stopAt_clean hr.clean, doneLanes, Issuer.endWalk, src_fresh hi.fresh, Issuer.lane]
  rw [finish_becomes hi]

/-- The predicate form. -/
theorem laneP_ready {s : State} {c : Issuer} (hi : Issues s c) {legal : Fmt → Bool} {srcs last : List Nat} {pd cmb : Nat}
    {f : Issuer → Nat → (Nat → Word) → Bool} (hl : legal c.fmt = true) (hr : LaneReady s c srcs []) :
    laneP legal srcs last pd cmb f s = .next (s.becomes c (c.advanced s c.next
      ((c.grp.setPred pd (c.grp.pred pd &&& ~~~c.active ||| Mask.ofLanes (c.active.lanes.filter fun k =>
          combine cmb ((c.grp.pred pd).has k) (f c k fun n => c.lane n k)))).finishMap last []))) := by
  rw [laneP, laneStart_go hi hl hr rfl rfl]
  simp only [from_fresh hi.fresh, fromLane_zero, cutAt_whole hi.whole, stopAt_clean hr.clean, doneLanes, Issuer.endWalk, src_fresh hi.fresh, Issuer.lane,
    modGroup_modGroup]
  rw [finish_becomes hi]

theorem finishMap_v (g : Group) (last : List Nat) (ds : List (Nat × VReg)) : (g.finishMap last ds).v =
    ds.foldl (fun m d => SMap.insert m d.1 d.2) (last.foldl (fun m n => SMap.erase m n) g.v) := rfl

/-- The map after one destination and the freeing of last-read names. -/
theorem finishMap_one (g : Group) (last : List Nat) (d : Nat) (r : VReg) :
    SMap.find? (g.finishMap last [(d, r)]).v d = some r := by simp [finishMap_v]

theorem find?_eraseAll (last : List Nat) : ∀ (v : SMap VReg) (n : Nat),
    SMap.find? (last.foldl (fun m n => SMap.erase m n) v) n = if last.contains n then none else SMap.find? v n := by
  induction last with
  | nil => intro v n; simp
  | cons l ls ih =>
    intro v n
    simp only [List.foldl_cons, ih, List.contains_cons]
    by_cases h : n = l
    · subst h; simp
    · simp [SMap.find?_erase_ne v h, h]

theorem finishMap_other (g : Group) (last : List Nat) {d n : Nat} (r : VReg) (h : n ≠ d) :
    SMap.find? (g.finishMap last [(d, r)]).v n = if last.contains n then none else SMap.find? g.v n := by
  simp [finishMap_v, SMap.find?_insert_ne _ r h, find?_eraseAll]

end Sys2Proof.Machine
end

