-- ==== Sys2Proof/Laws/Memory.lean ====
section
/-! SUPPORT. Laws of memory: a read after a write, and that every memory operation keeps the canonical form. -/
namespace Sys2Proof.Machine

@[simp] theorem memByte_memPut_self (m : List Host.Cell) (a : Nat) (b : Byte) : memByte (memPut m a b) a = b := by
  unfold memByte memPut
  exact SMap.getD_put_self blank m a b

theorem memByte_memPut_ne (m : List Host.Cell) {a c : Nat} (b : Byte) (h : c ≠ a) : memByte (memPut m a b) c = memByte m c := by
  unfold memByte memPut
  exact SMap.getD_put_ne blank m b h

/-- The bytes outside a run of stored bytes read as before. -/
theorem memByte_memPuts_out (bs : List Byte) : ∀ (m : List Host.Cell) (a c : Nat), c < a ∨ a + bs.length ≤ c →
    memByte (memPuts m a bs) c = memByte m c := by
  induction bs with
  | nil => intro m a c _; rfl
  | cons b bs ih =>
    intro m a c h
    simp only [List.length_cons] at h
    have hc : c ≠ a := by omega
    rw [memPuts, ih _ _ _ (by omega), memByte_memPut_ne m b hc]

/-- A run of stored bytes is read back. -/
theorem memByte_memPuts_in (bs : List Byte) : ∀ (m : List Host.Cell) (a i : Nat) (h : i < bs.length),
    memByte (memPuts m a bs) (a + i) = bs[i] := by
  induction bs with
  | nil => intro m a i h; simp at h
  | cons b bs ih =>
    intro m a i h
    cases i with
    | zero =>
      have h0 : memByte (memPuts (memPut m a b) (a + 1) bs) a = memByte (memPut m a b) a :=
        memByte_memPuts_out bs _ _ _ (.inl (by omega))
      simp [memPuts, h0]
    | succ i =>
      have hi : i < bs.length := by simpa using h
      have := ih (memPut m a b) (a + 1) i hi
      simpa [memPuts, Nat.add_assoc, Nat.add_comm 1 i] using this

theorem memory_wf_memPut {m : List Host.Cell} (a : Nat) (b : Byte) (h : Memory.wf m = true) : Memory.wf (memPut m a b) = true := by
  simp only [Memory.wf, Bool.and_eq_true, List.all_eq_true] at h ⊢
  obtain ⟨hs, hb⟩ := h
  unfold memPut SMap.put
  split
  · exact ⟨SMap.sorted_erase a hs, fun x hx => hb x (SMap.mem_erase hx)⟩
  · rename_i hne
    refine ⟨SMap.sorted_insert a b hs, fun x hx => ?_⟩
    rcases SMap.mem_insert hx with rfl | hx
    · simpa using hne
    · exact hb x hx

theorem memory_wf_memPuts (bs : List Byte) : ∀ (m : List Host.Cell) (a : Nat), Memory.wf m = true → Memory.wf (memPuts m a bs) = true := by
  induction bs with
  | nil => intro m a h; exact h
  | cons b bs ih => intro m a h; exact ih _ _ (memory_wf_memPut a b h)

theorem memory_wf_filter {m : List Host.Cell} (p : Host.Cell → Bool) (h : Memory.wf m = true) : Memory.wf (m.filter p) = true := by
  simp only [Memory.wf, Bool.and_eq_true, List.all_eq_true] at h ⊢
  exact ⟨SMap.sorted_filter p h.1, fun x hx => h.2 x (List.mem_filter.1 hx).1⟩

theorem memory_wf_store {s : State} (a : Nat) (bs : List Byte) (h : Memory.wf s.mem = true) :
    Memory.wf (s.store a bs).mem = true := memory_wf_memPuts bs s.mem a h

theorem memory_wf_puts_list (bs : List (Nat × Byte)) : ∀ m : List Host.Cell, Memory.wf m = true →
    Memory.wf (bs.foldl (fun m b => memPut m b.1 b.2) m) = true := by
  induction bs with
  | nil => intro m h; exact h
  | cons b bs ih => intro m h; exact ih _ (memory_wf_memPut b.1 b.2 h)

theorem memory_wf_storeAt {s : State} (bs : List (Nat × Byte)) (h : Memory.wf s.mem = true) :
    Memory.wf (s.storeAt bs).mem = true := memory_wf_puts_list bs s.mem h

@[simp] theorem taint_mem (s : State) (w : Nat) : (s.taint w).mem = s.mem := rfl

theorem taints_mem (ws : List Nat) : ∀ s : State, (ws.foldl State.taint s).mem = s.mem := by
  induction ws with
  | nil => intro s; rfl
  | cons w ws ih => intro s; simpa using ih (s.taint w)

theorem memory_wf_copyBytes {s : State} (src dst n : Nat) (h : Memory.wf s.mem = true) :
    Memory.wf (s.copyBytes src dst n).mem = true := by
  unfold State.copyBytes
  simp only [taints_mem]
  exact memory_wf_store _ _ h

theorem memory_wf_zeroBytes {s : State} (key n : Nat) (h : Memory.wf s.mem = true) :
    Memory.wf (s.zeroBytes key n).mem = true := memory_wf_filter _ h

theorem memory_wf_putParts (ps : List (Nat × Nat)) : ∀ (s : State) (bs : List Byte), Memory.wf s.mem = true →
    Memory.wf (s.putParts ps bs).mem = true := by
  induction ps with
  | nil => intro s bs h; exact h
  | cons p ps ih => intro s bs h; exact ih _ _ (memory_wf_store _ _ h)

theorem memory_wf_copyParts : ∀ (n : Nat) (s : State) (xs ys : List (Nat × Nat)), Memory.wf s.mem = true →
    Memory.wf (State.copyParts n s xs ys).mem = true := by
  intro n
  induction n with
  | zero => intro s xs ys h; simpa [State.copyParts] using h
  | succ n ih =>
    intro s xs ys h
    cases xs with
    | nil => simpa [State.copyParts] using h
    | cons x xs =>
      cases ys with
      | nil => simpa [State.copyParts] using h
      | cons y ys => exact ih _ _ _ (memory_wf_copyBytes _ _ _ h)

theorem reset_memory_wf : Memory.wf State.reset.mem = true := rfl

end Sys2Proof.Machine
end

