-- ==== Sys2Proof/Laws/PerInstr.lean ====
section
/-! SUPPORT. What holds of each instruction as syntax, one lemma for each constructor. -/
namespace Sys2Proof.Laws.Words

/-- An instruction has at most two words (R57, R63). -/
def Statement (i : Instr) : Prop := ∀ m, (encode m i).length ≤ 2

theorem iadd : ∀ a0 a1 a2 a3 a4 a5, Statement (.iadd a0 a1 a2 a3 a4 a5) := fun _ _ _ _ _ _ _ => Nat.le_of_ble_eq_true rfl
theorem isub : ∀ a0 a1 a2 a3 a4 a5, Statement (.isub a0 a1 a2 a3 a4 a5) := fun _ _ _ _ _ _ _ => Nat.le_of_ble_eq_true rfl
theorem imul : ∀ a0 a1 a2 a3 a4 a5, Statement (.imul a0 a1 a2 a3 a4 a5) := fun _ _ _ _ _ _ _ => Nat.le_of_ble_eq_true rfl
theorem imuln : ∀ a0 a1 a2 a3 a4 a5, Statement (.imuln a0 a1 a2 a3 a4 a5) := fun _ _ _ _ _ _ _ => Nat.le_of_ble_eq_true rfl
theorem imin : ∀ a0 a1 a2 a3 a4 a5, Statement (.imin a0 a1 a2 a3 a4 a5) := fun _ _ _ _ _ _ _ => Nat.le_of_ble_eq_true rfl
theorem imax : ∀ a0 a1 a2 a3 a4 a5, Statement (.imax a0 a1 a2 a3 a4 a5) := fun _ _ _ _ _ _ _ => Nat.le_of_ble_eq_true rfl
theorem and : ∀ a0 a1 a2 a3 a4, Statement (.and a0 a1 a2 a3 a4) := fun _ _ _ _ _ _ => Nat.le_of_ble_eq_true rfl
theorem or : ∀ a0 a1 a2 a3 a4, Statement (.or a0 a1 a2 a3 a4) := fun _ _ _ _ _ _ => Nat.le_of_ble_eq_true rfl
theorem xor : ∀ a0 a1 a2 a3 a4, Statement (.xor a0 a1 a2 a3 a4) := fun _ _ _ _ _ _ => Nat.le_of_ble_eq_true rfl
theorem andn : ∀ a0 a1 a2 a3 a4, Statement (.andn a0 a1 a2 a3 a4) := fun _ _ _ _ _ _ => Nat.le_of_ble_eq_true rfl
theorem shl : ∀ a0 a1 a2 a3 a4, Statement (.shl a0 a1 a2 a3 a4) := fun _ _ _ _ _ _ => Nat.le_of_ble_eq_true rfl
theorem shr : ∀ a0 a1 a2 a3 a4 a5, Statement (.shr a0 a1 a2 a3 a4 a5) := fun _ _ _ _ _ _ _ => Nat.le_of_ble_eq_true rfl
theorem rot : ∀ a0 a1 a2 a3 a4, Statement (.rot a0 a1 a2 a3 a4) := fun _ _ _ _ _ _ => Nat.le_of_ble_eq_true rfl
theorem bfx : ∀ a0 a1 a2 a3 a4 a5, Statement (.bfx a0 a1 a2 a3 a4 a5) := fun _ _ _ _ _ _ _ => Nat.le_of_ble_eq_true rfl
theorem idivn : ∀ a0 a1 a2 a3 a4 a5, Statement (.idivn a0 a1 a2 a3 a4 a5) := fun _ _ _ _ _ _ _ => Nat.le_of_ble_eq_true rfl
theorem fadd : ∀ a0 a1 a2 a3 a4, Statement (.fadd a0 a1 a2 a3 a4) := fun _ _ _ _ _ _ => Nat.le_of_ble_eq_true rfl
theorem fsub : ∀ a0 a1 a2 a3 a4, Statement (.fsub a0 a1 a2 a3 a4) := fun _ _ _ _ _ _ => Nat.le_of_ble_eq_true rfl
theorem fmul : ∀ a0 a1 a2 a3 a4, Statement (.fmul a0 a1 a2 a3 a4) := fun _ _ _ _ _ _ => Nat.le_of_ble_eq_true rfl
theorem fmin : ∀ a0 a1 a2 a3 a4 a5, Statement (.fmin a0 a1 a2 a3 a4 a5) := fun _ _ _ _ _ _ _ => Nat.le_of_ble_eq_true rfl
theorem fmax : ∀ a0 a1 a2 a3 a4 a5, Statement (.fmax a0 a1 a2 a3 a4 a5) := fun _ _ _ _ _ _ _ => Nat.le_of_ble_eq_true rfl
theorem hadd2 : ∀ a0 a1 a2 a3 a4, Statement (.hadd2 a0 a1 a2 a3 a4) := fun _ _ _ _ _ _ => Nat.le_of_ble_eq_true rfl
theorem hsub2 : ∀ a0 a1 a2 a3 a4, Statement (.hsub2 a0 a1 a2 a3 a4) := fun _ _ _ _ _ _ => Nat.le_of_ble_eq_true rfl
theorem hmul2 : ∀ a0 a1 a2 a3 a4, Statement (.hmul2 a0 a1 a2 a3 a4) := fun _ _ _ _ _ _ => Nat.le_of_ble_eq_true rfl
theorem hmin2 : ∀ a0 a1 a2 a3 a4, Statement (.hmin2 a0 a1 a2 a3 a4) := fun _ _ _ _ _ _ => Nat.le_of_ble_eq_true rfl
theorem hmax2 : ∀ a0 a1 a2 a3 a4, Statement (.hmax2 a0 a1 a2 a3 a4) := fun _ _ _ _ _ _ => Nat.le_of_ble_eq_true rfl
theorem pack2 : ∀ a0 a1 a2 a3 a4 a5, Statement (.pack2 a0 a1 a2 a3 a4 a5) := fun _ _ _ _ _ _ _ => Nat.le_of_ble_eq_true rfl
theorem iadd64 : ∀ a0 a1 a2 a3 a4 a5, Statement (.iadd64 a0 a1 a2 a3 a4 a5) := fun _ _ _ _ _ _ _ => Nat.le_of_ble_eq_true rfl
theorem isub64 : ∀ a0 a1 a2 a3 a4, Statement (.isub64 a0 a1 a2 a3 a4) := fun _ _ _ _ _ _ => Nat.le_of_ble_eq_true rfl
theorem fdiv : ∀ a0 a1 a2 a3 a4, Statement (.fdiv a0 a1 a2 a3 a4) := fun _ _ _ _ _ _ => Nat.le_of_ble_eq_true rfl
theorem movi : ∀ a0 a1, Statement (.movi a0 a1) := fun _ _ _ => Nat.le_of_ble_eq_true rfl
theorem movhi : ∀ a0 a1, Statement (.movhi a0 a1) := fun _ _ _ => Nat.le_of_ble_eq_true rfl
theorem iaddi : ∀ a0 a1, Statement (.iaddi a0 a1) := fun _ _ _ => Nat.le_of_ble_eq_true rfl
theorem imuli : ∀ a0 a1, Statement (.imuli a0 a1) := fun _ _ _ => Nat.le_of_ble_eq_true rfl
theorem andi : ∀ a0 a1, Statement (.andi a0 a1) := fun _ _ _ => Nat.le_of_ble_eq_true rfl
theorem ori : ∀ a0 a1, Statement (.ori a0 a1) := fun _ _ _ => Nat.le_of_ble_eq_true rfl
theorem xori : ∀ a0 a1, Statement (.xori a0 a1) := fun _ _ _ => Nat.le_of_ble_eq_true rfl
theorem shli : ∀ a0 a1, Statement (.shli a0 a1) := fun _ _ _ => Nat.le_of_ble_eq_true rfl
theorem shri : ∀ a0 a1, Statement (.shri a0 a1) := fun _ _ _ => Nat.le_of_ble_eq_true rfl
theorem shrai : ∀ a0 a1, Statement (.shrai a0 a1) := fun _ _ _ => Nat.le_of_ble_eq_true rfl
theorem faddi : ∀ a0 a1, Statement (.faddi a0 a1) := fun _ _ _ => Nat.le_of_ble_eq_true rfl
theorem fmuli : ∀ a0 a1, Statement (.fmuli a0 a1) := fun _ _ _ => Nat.le_of_ble_eq_true rfl
theorem fmovi : ∀ a0 a1, Statement (.fmovi a0 a1) := fun _ _ _ => Nat.le_of_ble_eq_true rfl
theorem hadd2i : ∀ a0 a1, Statement (.hadd2i a0 a1) := fun _ _ _ => Nat.le_of_ble_eq_true rfl
theorem hmul2i : ∀ a0 a1, Statement (.hmul2i a0 a1) := fun _ _ _ => Nat.le_of_ble_eq_true rfl
theorem hmovi2 : ∀ a0 a1, Statement (.hmovi2 a0 a1) := fun _ _ _ => Nat.le_of_ble_eq_true rfl
theorem qmovi4 : ∀ a0 a1, Statement (.qmovi4 a0 a1) := fun _ _ _ => Nat.le_of_ble_eq_true rfl
theorem fmini : ∀ a0 a1, Statement (.fmini a0 a1) := fun _ _ _ => Nat.le_of_ble_eq_true rfl
theorem fmaxi : ∀ a0 a1, Statement (.fmaxi a0 a1) := fun _ _ _ => Nat.le_of_ble_eq_true rfl
theorem ffma : ∀ a0 a1 a2 a3 a4 a5, Statement (.ffma a0 a1 a2 a3 a4 a5) := fun _ _ _ _ _ _ _ => Nat.le_of_ble_eq_true rfl
theorem fnma : ∀ a0 a1 a2 a3 a4 a5, Statement (.fnma a0 a1 a2 a3 a4 a5) := fun _ _ _ _ _ _ _ => Nat.le_of_ble_eq_true rfl
theorem hfma2 : ∀ a0 a1 a2 a3 a4, Statement (.hfma2 a0 a1 a2 a3 a4) := fun _ _ _ _ _ _ => Nat.le_of_ble_eq_true rfl
theorem imad : ∀ a0 a1 a2 a3 a4 a5, Statement (.imad a0 a1 a2 a3 a4 a5) := fun _ _ _ _ _ _ _ => Nat.le_of_ble_eq_true rfl
theorem dot4 : ∀ a0 a1 a2 a3 a4, Statement (.dot4 a0 a1 a2 a3 a4) := fun _ _ _ _ _ _ => Nat.le_of_ble_eq_true rfl
theorem dot8 : ∀ a0 a1 a2 a3 a4, Statement (.dot8 a0 a1 a2 a3 a4) := fun _ _ _ _ _ _ => Nat.le_of_ble_eq_true rfl
theorem dot2h : ∀ a0 a1 a2 a3 a4, Statement (.dot2h a0 a1 a2 a3 a4) := fun _ _ _ _ _ _ => Nat.le_of_ble_eq_true rfl
theorem bfi : ∀ a0 a1 a2 a3 a4, Statement (.bfi a0 a1 a2 a3 a4) := fun _ _ _ _ _ _ => Nat.le_of_ble_eq_true rfl
theorem permb : ∀ a0 a1 a2 a3 a4, Statement (.permb a0 a1 a2 a3 a4) := fun _ _ _ _ _ _ => Nat.le_of_ble_eq_true rfl
theorem sel : ∀ a0 a1 a2 a3 a4 a5, Statement (.sel a0 a1 a2 a3 a4 a5) := fun _ _ _ _ _ _ _ => Nat.le_of_ble_eq_true rfl
theorem fclamp : ∀ a0 a1 a2 a3 a4, Statement (.fclamp a0 a1 a2 a3 a4) := fun _ _ _ _ _ _ => Nat.le_of_ble_eq_true rfl
theorem imadw : ∀ a0 a1 a2 a3 a4, Statement (.imadw a0 a1 a2 a3 a4) := fun _ _ _ _ _ _ => Nat.le_of_ble_eq_true rfl
theorem mov : ∀ a0 a1 a2, Statement (.mov a0 a1 a2) := fun _ _ _ _ => Nat.le_of_ble_eq_true rfl
theorem fabs : ∀ a0 a1 a2, Statement (.fabs a0 a1 a2) := fun _ _ _ _ => Nat.le_of_ble_eq_true rfl
theorem fneg : ∀ a0 a1 a2, Statement (.fneg a0 a1 a2) := fun _ _ _ _ => Nat.le_of_ble_eq_true rfl
theorem ineg : ∀ a0 a1 a2, Statement (.ineg a0 a1 a2) := fun _ _ _ _ => Nat.le_of_ble_eq_true rfl
theorem not : ∀ a0 a1 a2, Statement (.not a0 a1 a2) := fun _ _ _ _ => Nat.le_of_ble_eq_true rfl
theorem popc : ∀ a0 a1 a2, Statement (.popc a0 a1 a2) := fun _ _ _ _ => Nat.le_of_ble_eq_true rfl
theorem clz : ∀ a0 a1 a2, Statement (.clz a0 a1 a2) := fun _ _ _ _ => Nat.le_of_ble_eq_true rfl
theorem brev : ∀ a0 a1 a2, Statement (.brev a0 a1 a2) := fun _ _ _ _ => Nat.le_of_ble_eq_true rfl
theorem frcp : ∀ a0 a1 a2, Statement (.frcp a0 a1 a2) := fun _ _ _ _ => Nat.le_of_ble_eq_true rfl
theorem frsq : ∀ a0 a1 a2, Statement (.frsq a0 a1 a2) := fun _ _ _ _ => Nat.le_of_ble_eq_true rfl
theorem fsqrt : ∀ a0 a1 a2, Statement (.fsqrt a0 a1 a2) := fun _ _ _ _ => Nat.le_of_ble_eq_true rfl
theorem fexp2 : ∀ a0 a1 a2, Statement (.fexp2 a0 a1 a2) := fun _ _ _ _ => Nat.le_of_ble_eq_true rfl
theorem flog2 : ∀ a0 a1 a2, Statement (.flog2 a0 a1 a2) := fun _ _ _ _ => Nat.le_of_ble_eq_true rfl
theorem fsin : ∀ a0 a1 a2, Statement (.fsin a0 a1 a2) := fun _ _ _ _ => Nat.le_of_ble_eq_true rfl
theorem fcos : ∀ a0 a1 a2, Statement (.fcos a0 a1 a2) := fun _ _ _ _ => Nat.le_of_ble_eq_true rfl
theorem ftanh : ∀ a0 a1 a2, Statement (.ftanh a0 a1 a2) := fun _ _ _ _ => Nat.le_of_ble_eq_true rfl
theorem ftoi : ∀ a0 a1 a2, Statement (.ftoi a0 a1 a2) := fun _ _ _ _ => Nat.le_of_ble_eq_true rfl
theorem itof : ∀ a0 a1 a2, Statement (.itof a0 a1 a2) := fun _ _ _ _ => Nat.le_of_ble_eq_true rfl
theorem fcvt : ∀ a0 a1 a2 a3, Statement (.fcvt a0 a1 a2 a3) := fun _ _ _ _ _ => Nat.le_of_ble_eq_true rfl
theorem hcvt : ∀ a0 a1 a2 a3, Statement (.hcvt a0 a1 a2 a3) := fun _ _ _ _ _ => Nat.le_of_ble_eq_true rfl
theorem qcvt : ∀ a0 a1 a2 a3, Statement (.qcvt a0 a1 a2 a3) := fun _ _ _ _ _ => Nat.le_of_ble_eq_true rfl
theorem qunp : ∀ a0 a1 a2 a3, Statement (.qunp a0 a1 a2 a3) := fun _ _ _ _ _ => Nat.le_of_ble_eq_true rfl
theorem q4cvt : ∀ a0 a1 a2 a3, Statement (.q4cvt a0 a1 a2 a3) := fun _ _ _ _ _ => Nat.le_of_ble_eq_true rfl
theorem q4unp : ∀ a0 a1 a2 a3, Statement (.q4unp a0 a1 a2 a3) := fun _ _ _ _ _ => Nat.le_of_ble_eq_true rfl
theorem frnd : ∀ a0 a1 a2 a3, Statement (.frnd a0 a1 a2 a3) := fun _ _ _ _ _ => Nat.le_of_ble_eq_true rfl
theorem fclass : ∀ a0 a1 a2, Statement (.fclass a0 a1 a2) := fun _ _ _ _ => Nat.le_of_ble_eq_true rfl
theorem laneid : ∀ a0, Statement (.laneid a0) := fun _ _ => Nat.le_of_ble_eq_true rfl
theorem icmp : ∀ a0 a1 a2 a3 a4 a5 a6, Statement (.icmp a0 a1 a2 a3 a4 a5 a6) := fun _ _ _ _ _ _ _ _ => Nat.le_of_ble_eq_true rfl
theorem icmpn : ∀ a0 a1 a2 a3 a4 a5 a6, Statement (.icmpn a0 a1 a2 a3 a4 a5 a6) := fun _ _ _ _ _ _ _ _ => Nat.le_of_ble_eq_true rfl
theorem fcmp : ∀ a0 a1 a2 a3 a4 a5 a6, Statement (.fcmp a0 a1 a2 a3 a4 a5 a6) := fun _ _ _ _ _ _ _ _ => Nat.le_of_ble_eq_true rfl
theorem testb : ∀ a0 a1 a2 a3 a4 a5, Statement (.testb a0 a1 a2 a3 a4 a5) := fun _ _ _ _ _ _ _ => Nat.le_of_ble_eq_true rfl
theorem plog : ∀ a0 a1 a2 a3 a4, Statement (.plog a0 a1 a2 a3 a4) := fun _ _ _ _ _ _ => Nat.le_of_ble_eq_true rfl
theorem scan : ∀ a0 a1 a2 a3 a4, Statement (.scan a0 a1 a2 a3 a4) := fun _ _ _ _ _ _ => Nat.le_of_ble_eq_true rfl
theorem scanx : ∀ a0 a1 a2 a3 a4, Statement (.scanx a0 a1 a2 a3 a4) := fun _ _ _ _ _ _ => Nat.le_of_ble_eq_true rfl
theorem reduce : ∀ a0 a1 a2 a3, Statement (.reduce a0 a1 a2 a3) := fun _ _ _ _ _ => Nat.le_of_ble_eq_true rfl
theorem prevLane : ∀ a0 a1 a2 a3, Statement (.prevLane a0 a1 a2 a3) := fun _ _ _ _ _ => Nat.le_of_ble_eq_true rfl
theorem nextLane : ∀ a0 a1 a2 a3, Statement (.nextLane a0 a1 a2 a3) := fun _ _ _ _ _ => Nat.le_of_ble_eq_true rfl
theorem shup : ∀ a0 a1 a2 a3 a4, Statement (.shup a0 a1 a2 a3 a4) := fun _ _ _ _ _ _ => Nat.le_of_ble_eq_true rfl
theorem shdn : ∀ a0 a1 a2 a3 a4, Statement (.shdn a0 a1 a2 a3 a4) := fun _ _ _ _ _ _ => Nat.le_of_ble_eq_true rfl
theorem bfly : ∀ a0 a1 a2 a3 a4, Statement (.bfly a0 a1 a2 a3 a4) := fun _ _ _ _ _ _ => Nat.le_of_ble_eq_true rfl
theorem perm : ∀ a0 a1 a2 a3 a4, Statement (.perm a0 a1 a2 a3 a4) := fun _ _ _ _ _ _ => Nat.le_of_ble_eq_true rfl
theorem bcastl : ∀ a0 a1 a2 a3 a4, Statement (.bcastl a0 a1 a2 a3 a4) := fun _ _ _ _ _ _ => Nat.le_of_ble_eq_true rfl
theorem vote : ∀ a0 a1, Statement (.vote a0 a1) := fun _ _ _ => Nat.le_of_ble_eq_true rfl
theorem matchEq : ∀ a0 a1 a2 a3, Statement (.matchEq a0 a1 a2 a3) := fun _ _ _ _ _ => Nat.le_of_ble_eq_true rfl
theorem gets : ∀ a0 a1, Statement (.gets a0 a1) := fun _ _ _ => Nat.le_of_ble_eq_true rfl
theorem puts : ∀ a0 a1 a2, Statement (.puts a0 a1 a2) := fun _ _ _ _ => Nat.le_of_ble_eq_true rfl
theorem ldg8n : ∀ a0 a1 a2 a3 a4, Statement (.ldg8n a0 a1 a2 a3 a4) := fun _ _ _ _ _ _ => Nat.le_of_ble_eq_true rfl
theorem ldg8i : ∀ a0 a1 a2 a3 a4, Statement (.ldg8i a0 a1 a2 a3 a4) := fun _ _ _ _ _ _ => Nat.le_of_ble_eq_true rfl
theorem ldg16n : ∀ a0 a1 a2 a3 a4, Statement (.ldg16n a0 a1 a2 a3 a4) := fun _ _ _ _ _ _ => Nat.le_of_ble_eq_true rfl
theorem ldg16i : ∀ a0 a1 a2 a3 a4, Statement (.ldg16i a0 a1 a2 a3 a4) := fun _ _ _ _ _ _ => Nat.le_of_ble_eq_true rfl
theorem ldg32 : ∀ a0 a1 a2 a3 a4, Statement (.ldg32 a0 a1 a2 a3 a4) := fun _ _ _ _ _ _ => Nat.le_of_ble_eq_true rfl
theorem ldg64 : ∀ a0 a1 a2 a3 a4, Statement (.ldg64 a0 a1 a2 a3 a4) := fun _ _ _ _ _ _ => Nat.le_of_ble_eq_true rfl
theorem ldg128 : ∀ a0 a1 a2 a3 a4, Statement (.ldg128 a0 a1 a2 a3 a4) := fun _ _ _ _ _ _ => Nat.le_of_ble_eq_true rfl
theorem stg8 : ∀ a0 a1 a2 a3 a4, Statement (.stg8 a0 a1 a2 a3 a4) := fun _ _ _ _ _ _ => Nat.le_of_ble_eq_true rfl
theorem stg16 : ∀ a0 a1 a2 a3 a4, Statement (.stg16 a0 a1 a2 a3 a4) := fun _ _ _ _ _ _ => Nat.le_of_ble_eq_true rfl
theorem stg32 : ∀ a0 a1 a2 a3 a4, Statement (.stg32 a0 a1 a2 a3 a4) := fun _ _ _ _ _ _ => Nat.le_of_ble_eq_true rfl
theorem stg64 : ∀ a0 a1 a2 a3 a4, Statement (.stg64 a0 a1 a2 a3 a4) := fun _ _ _ _ _ _ => Nat.le_of_ble_eq_true rfl
theorem stg128 : ∀ a0 a1 a2 a3 a4, Statement (.stg128 a0 a1 a2 a3 a4) := fun _ _ _ _ _ _ => Nat.le_of_ble_eq_true rfl
theorem ldp32 : ∀ a0 a1 a2 a3 a4, Statement (.ldp32 a0 a1 a2 a3 a4) := fun _ _ _ _ _ _ => Nat.le_of_ble_eq_true rfl
theorem ldp64 : ∀ a0 a1 a2 a3 a4, Statement (.ldp64 a0 a1 a2 a3 a4) := fun _ _ _ _ _ _ => Nat.le_of_ble_eq_true rfl
theorem ldp128 : ∀ a0 a1 a2 a3 a4, Statement (.ldp128 a0 a1 a2 a3 a4) := fun _ _ _ _ _ _ => Nat.le_of_ble_eq_true rfl
theorem stp32 : ∀ a0 a1 a2 a3 a4, Statement (.stp32 a0 a1 a2 a3 a4) := fun _ _ _ _ _ _ => Nat.le_of_ble_eq_true rfl
theorem stp64 : ∀ a0 a1 a2 a3 a4, Statement (.stp64 a0 a1 a2 a3 a4) := fun _ _ _ _ _ _ => Nat.le_of_ble_eq_true rfl
theorem stp128 : ∀ a0 a1 a2 a3 a4, Statement (.stp128 a0 a1 a2 a3 a4) := fun _ _ _ _ _ _ => Nat.le_of_ble_eq_true rfl
theorem atomg : ∀ a0 a1 a2 a3 a4, Statement (.atomg a0 a1 a2 a3 a4) := fun _ _ _ _ _ _ => Nat.le_of_ble_eq_true rfl
theorem redg : ∀ a0 a1 a2 a3 a4, Statement (.redg a0 a1 a2 a3 a4) := fun _ _ _ _ _ _ => Nat.le_of_ble_eq_true rfl
theorem atomp : ∀ a0 a1 a2 a3 a4, Statement (.atomp a0 a1 a2 a3 a4) := fun _ _ _ _ _ _ => Nat.le_of_ble_eq_true rfl
theorem prefg : ∀ a0 a1 a2 a3, Statement (.prefg a0 a1 a2 a3) := fun _ _ _ _ _ => Nat.le_of_ble_eq_true rfl
theorem lda32 : ∀ a0 a1 a2 a3 a4, Statement (.lda32 a0 a1 a2 a3 a4) := fun _ _ _ _ _ _ => Nat.le_of_ble_eq_true rfl
theorem lda64 : ∀ a0 a1 a2 a3 a4, Statement (.lda64 a0 a1 a2 a3 a4) := fun _ _ _ _ _ _ => Nat.le_of_ble_eq_true rfl
theorem stl32 : ∀ a0 a1 a2 a3 a4, Statement (.stl32 a0 a1 a2 a3 a4) := fun _ _ _ _ _ _ => Nat.le_of_ble_eq_true rfl
theorem stl64 : ∀ a0 a1 a2 a3 a4, Statement (.stl64 a0 a1 a2 a3 a4) := fun _ _ _ _ _ _ => Nat.le_of_ble_eq_true rfl
theorem ldf32 : ∀ a0 a1 a2 a3, Statement (.ldf32 a0 a1 a2 a3) := fun _ _ _ _ _ => Nat.le_of_ble_eq_true rfl
theorem stf32 : ∀ a0 a1 a2 a3, Statement (.stf32 a0 a1 a2 a3) := fun _ _ _ _ _ => Nat.le_of_ble_eq_true rfl
theorem guard : ∀ a0 a1 a2, Statement (.guard a0 a1 a2) := fun _ _ _ _ => Nat.le_of_ble_eq_true rfl
theorem sadd : ∀ a0 a1 a2, Statement (.sadd a0 a1 a2) := fun _ _ _ _ => Nat.le_of_ble_eq_true rfl
theorem ssub : ∀ a0 a1 a2, Statement (.ssub a0 a1 a2) := fun _ _ _ _ => Nat.le_of_ble_eq_true rfl
theorem smul : ∀ a0 a1 a2, Statement (.smul a0 a1 a2) := fun _ _ _ _ => Nat.le_of_ble_eq_true rfl
theorem smulh : ∀ a0 a1 a2 a3, Statement (.smulh a0 a1 a2 a3) := fun _ _ _ _ _ => Nat.le_of_ble_eq_true rfl
theorem smin : ∀ a0 a1 a2 a3, Statement (.smin a0 a1 a2 a3) := fun _ _ _ _ _ => Nat.le_of_ble_eq_true rfl
theorem smax : ∀ a0 a1 a2 a3, Statement (.smax a0 a1 a2 a3) := fun _ _ _ _ _ => Nat.le_of_ble_eq_true rfl
theorem sand : ∀ a0 a1 a2, Statement (.sand a0 a1 a2) := fun _ _ _ _ => Nat.le_of_ble_eq_true rfl
theorem sor : ∀ a0 a1 a2, Statement (.sor a0 a1 a2) := fun _ _ _ _ => Nat.le_of_ble_eq_true rfl
theorem sxor : ∀ a0 a1 a2, Statement (.sxor a0 a1 a2) := fun _ _ _ _ => Nat.le_of_ble_eq_true rfl
theorem sshl : ∀ a0 a1 a2, Statement (.sshl a0 a1 a2) := fun _ _ _ _ => Nat.le_of_ble_eq_true rfl
theorem sshr : ∀ a0 a1 a2, Statement (.sshr a0 a1 a2) := fun _ _ _ _ => Nat.le_of_ble_eq_true rfl
theorem sshra : ∀ a0 a1 a2, Statement (.sshra a0 a1 a2) := fun _ _ _ _ => Nat.le_of_ble_eq_true rfl
theorem sadd64 : ∀ a0 a1 a2, Statement (.sadd64 a0 a1 a2) := fun _ _ _ _ => Nat.le_of_ble_eq_true rfl
theorem scmp : ∀ a0 a1 a2 a3, Statement (.scmp a0 a1 a2 a3) := fun _ _ _ _ _ => Nat.le_of_ble_eq_true rfl
theorem sfadd : ∀ a0 a1 a2, Statement (.sfadd a0 a1 a2) := fun _ _ _ _ => Nat.le_of_ble_eq_true rfl
theorem sfmul : ∀ a0 a1 a2, Statement (.sfmul a0 a1 a2) := fun _ _ _ _ => Nat.le_of_ble_eq_true rfl
theorem sdivn : ∀ a0 a1 a2, Statement (.sdivn a0 a1 a2) := fun _ _ _ _ => Nat.le_of_ble_eq_true rfl
theorem spopc : ∀ a0 a1, Statement (.spopc a0 a1) := fun _ _ _ => Nat.le_of_ble_eq_true rfl
theorem sff1 : ∀ a0 a1, Statement (.sff1 a0 a1) := fun _ _ _ => Nat.le_of_ble_eq_true rfl
theorem smovi : ∀ a0 a1, Statement (.smovi a0 a1) := fun _ _ _ => Nat.le_of_ble_eq_true rfl
theorem smovhi : ∀ a0 a1, Statement (.smovhi a0 a1) := fun _ _ _ => Nat.le_of_ble_eq_true rfl
theorem saddi : ∀ a0 a1, Statement (.saddi a0 a1) := fun _ _ _ => Nat.le_of_ble_eq_true rfl
theorem sandi : ∀ a0 a1, Statement (.sandi a0 a1) := fun _ _ _ => Nat.le_of_ble_eq_true rfl
theorem sori : ∀ a0 a1, Statement (.sori a0 a1) := fun _ _ _ => Nat.le_of_ble_eq_true rfl
theorem sxori : ∀ a0 a1, Statement (.sxori a0 a1) := fun _ _ _ => Nat.le_of_ble_eq_true rfl
theorem sshli : ∀ a0 a1, Statement (.sshli a0 a1) := fun _ _ _ => Nat.le_of_ble_eq_true rfl
theorem sshri : ∀ a0 a1, Statement (.sshri a0 a1) := fun _ _ _ => Nat.le_of_ble_eq_true rfl
theorem smuli : ∀ a0 a1, Statement (.smuli a0 a1) := fun _ _ _ => Nat.le_of_ble_eq_true rfl
theorem smov32 : ∀ a0 a1, Statement (.smov32 a0 a1) := fun _ _ _ => Nat.le_of_ble_eq_true rfl
theorem braL : ∀ a0, Statement (.braL a0) := fun _ _ => Nat.le_of_ble_eq_true rfl
theorem callL : ∀ a0 a1, Statement (.callL a0 a1) := fun _ _ _ => Nat.le_of_ble_eq_true rfl
theorem sadd32 : ∀ a0 a1, Statement (.sadd32 a0 a1) := fun _ _ _ => Nat.le_of_ble_eq_true rfl
theorem bra : ∀ a0, Statement (.bra a0) := fun _ _ => Nat.le_of_ble_eq_true rfl
theorem bz : ∀ a0 a1, Statement (.bz a0 a1) := fun _ _ _ => Nat.le_of_ble_eq_true rfl
theorem bnz : ∀ a0 a1, Statement (.bnz a0 a1) := fun _ _ _ => Nat.le_of_ble_eq_true rfl
theorem call : ∀ a0 a1, Statement (.call a0 a1) := fun _ _ _ => Nat.le_of_ble_eq_true rfl
theorem brx : ∀ a0, Statement (.brx a0) := fun _ _ => Nat.le_of_ble_eq_true rfl
theorem bdiv : ∀ a0 a1, Statement (.bdiv a0 a1) := fun _ _ _ => Nat.le_of_ble_eq_true rfl
theorem bidx : ∀ a0 a1, Statement (.bidx a0 a1) := fun _ _ _ => Nat.le_of_ble_eq_true rfl
theorem jset : ∀ a0, Statement (.jset a0) := fun _ _ => Nat.le_of_ble_eq_true rfl
theorem bvote : ∀ a0 a1 a2, Statement (.bvote a0 a1 a2) := fun _ _ _ _ => Nat.le_of_ble_eq_true rfl
theorem trap : ∀ a0, Statement (.trap a0) := fun _ _ => Nat.le_of_ble_eq_true rfl
theorem bar : ∀ a0 a1 a2, Statement (.bar a0 a1 a2) := fun _ _ _ _ => Nat.le_of_ble_eq_true rfl
theorem bara : ∀ a0 a1 a2, Statement (.bara a0 a1 a2) := fun _ _ _ _ => Nat.le_of_ble_eq_true rfl
theorem barw : ∀ a0 a1, Statement (.barw a0 a1) := fun _ _ _ => Nat.le_of_ble_eq_true rfl
theorem fence : ∀ a0 a1, Statement (.fence a0 a1) := fun _ _ _ => Nat.le_of_ble_eq_true rfl
theorem waitm : ∀ a0 a1 a2, Statement (.waitm a0 a1 a2) := fun _ _ _ _ => Nat.le_of_ble_eq_true rfl
theorem sleep : ∀ a0, Statement (.sleep a0) := fun _ _ => Nat.le_of_ble_eq_true rfl
theorem getsr : ∀ a0 a1, Statement (.getsr a0 a1) := fun _ _ _ => Nat.le_of_ble_eq_true rfl
theorem setsr : ∀ a0 a1, Statement (.setsr a0 a1) := fun _ _ _ => Nat.le_of_ble_eq_true rfl
theorem fmtw : ∀ a0, Statement (.fmtw a0) := fun _ _ => Nat.le_of_ble_eq_true rfl
theorem fmtwRm : ∀ a0, Statement (.fmtwRm a0) := fun _ _ => Nat.le_of_ble_eq_true rfl
theorem hclaim : ∀ a0, Statement (.hclaim a0) := fun _ _ => Nat.le_of_ble_eq_true rfl
theorem hrel : ∀ a0, Statement (.hrel a0) := fun _ _ => Nat.le_of_ble_eq_true rfl
theorem hwr : ∀ a0 a1, Statement (.hwr a0 a1) := fun _ _ _ => Nat.le_of_ble_eq_true rfl
theorem hrd : ∀ a0 a1, Statement (.hrd a0 a1) := fun _ _ _ => Nat.le_of_ble_eq_true rfl
theorem syscall : ∀ a0, Statement (.syscall a0) := fun _ _ => Nat.le_of_ble_eq_true rfl
theorem talloc : ∀ a0 a1, Statement (.talloc a0 a1) := fun _ _ _ => Nat.le_of_ble_eq_true rfl
theorem tfree : ∀ a0, Statement (.tfree a0) := fun _ _ => Nat.le_of_ble_eq_true rfl
theorem tgive : ∀ a0 a1, Statement (.tgive a0 a1) := fun _ _ _ => Nat.le_of_ble_eq_true rfl
theorem ttake : ∀ a0 a1, Statement (.ttake a0 a1) := fun _ _ _ => Nat.le_of_ble_eq_true rfl
theorem tzero : ∀ a0, Statement (.tzero a0) := fun _ _ => Nat.le_of_ble_eq_true rfl
theorem mma : ∀ a0 a1 a2 a3 a4 a5, Statement (.mma a0 a1 a2 a3 a4 a5) := fun _ _ _ _ _ _ _ => Nat.le_of_ble_eq_true rfl
theorem mmas : ∀ a0 a1 a2 a3 a4, Statement (.mmas a0 a1 a2 a3 a4) := fun _ _ _ _ _ _ => Nat.le_of_ble_eq_true rfl
theorem tcomp : ∀ a0 a1 a2, Statement (.tcomp a0 a1 a2) := fun _ _ _ _ => Nat.le_of_ble_eq_true rfl
theorem tsoft : ∀ a0 a1 a2 a3 a4, Statement (.tsoft a0 a1 a2 a3 a4) := fun _ _ _ _ _ _ => Nat.le_of_ble_eq_true rfl
theorem tscale : ∀ a0 a1 a2 a3, Statement (.tscale a0 a1 a2 a3) := fun _ _ _ _ _ => Nat.le_of_ble_eq_true rfl
theorem tnorm : ∀ a0 a1 a2, Statement (.tnorm a0 a1 a2) := fun _ _ _ _ => Nat.le_of_ble_eq_true rfl
theorem trowred : ∀ a0 a1 a2, Statement (.trowred a0 a1 a2) := fun _ _ _ _ => Nat.le_of_ble_eq_true rfl
theorem tew : ∀ a0 a1 a2 a3 a4 a5, Statement (.tew a0 a1 a2 a3 a4 a5) := fun _ _ _ _ _ _ _ => Nat.le_of_ble_eq_true rfl
theorem ttov : ∀ a0 a1 a2, Statement (.ttov a0 a1 a2) := fun _ _ _ _ => Nat.le_of_ble_eq_true rfl
theorem vtot : ∀ a0 a1 a2, Statement (.vtot a0 a1 a2) := fun _ _ _ _ => Nat.le_of_ble_eq_true rfl
theorem tarv : ∀ a0 a1, Statement (.tarv a0 a1) := fun _ _ _ => Nat.le_of_ble_eq_true rfl
theorem tawt : ∀ a0 a1, Statement (.tawt a0 a1) := fun _ _ _ => Nat.le_of_ble_eq_true rfl
theorem tstat : ∀ a0 a1, Statement (.tstat a0 a1) := fun _ _ _ => Nat.le_of_ble_eq_true rfl
theorem sigq : ∀ a0 a1 a2, Statement (.sigq a0 a1 a2) := fun _ _ _ _ => Nat.le_of_ble_eq_true rfl
theorem cpy : ∀ a0 a1 a2 a3, Statement (.cpy a0 a1 a2 a3) := fun _ _ _ _ _ => Nat.le_of_ble_eq_true rfl
theorem tld : ∀ a0 a1 a2 a3, Statement (.tld a0 a1 a2 a3) := fun _ _ _ _ _ => Nat.le_of_ble_eq_true rfl
theorem tst : ∀ a0 a1 a2 a3, Statement (.tst a0 a1 a2 a3) := fun _ _ _ _ _ => Nat.le_of_ble_eq_true rfl
theorem wbld : ∀ a0 a1 a2 a3 a4 a5, Statement (.wbld a0 a1 a2 a3 a4 a5) := fun _ _ _ _ _ _ _ => Nat.le_of_ble_eq_true rfl
theorem gath : ∀ a0 a1 a2 a3 a4, Statement (.gath a0 a1 a2 a3 a4) := fun _ _ _ _ _ _ => Nat.le_of_ble_eq_true rfl
theorem sigf : ∀ a0 a1 a2 a3, Statement (.sigf a0 a1 a2 a3) := fun _ _ _ _ _ => Nat.le_of_ble_eq_true rfl
theorem cpyf : ∀ a0 a1 a2 a3, Statement (.cpyf a0 a1 a2 a3) := fun _ _ _ _ _ => Nat.le_of_ble_eq_true rfl
theorem mcst : ∀ a0 a1 a2, Statement (.mcst a0 a1 a2) := fun _ _ _ _ => Nat.le_of_ble_eq_true rfl
theorem coll : ∀ a0 a1 a2, Statement (.coll a0 a1 a2) := fun _ _ _ _ => Nat.le_of_ble_eq_true rfl
theorem enc : ∀ a0 a1 a2, Statement (.enc a0 a1 a2) := fun _ _ _ _ => Nat.le_of_ble_eq_true rfl
theorem batch : ∀ a0 a1, Statement (.batch a0 a1) := fun _ _ _ => Nat.le_of_ble_eq_true rfl
theorem waittl : ∀ a0 a1, Statement (.waittl a0 a1) := fun _ _ _ => Nat.le_of_ble_eq_true rfl
theorem testtl : ∀ a0 a1 a2, Statement (.testtl a0 a1 a2) := fun _ _ _ _ => Nat.le_of_ble_eq_true rfl
theorem cancel : ∀ a0, Statement (.cancel a0) := fun _ _ => Nat.le_of_ble_eq_true rfl
theorem qmov : ∀ a0 a1 a2 a3, Statement (.qmov a0 a1 a2 a3) := fun _ _ _ _ _ => Nat.le_of_ble_eq_true rfl
theorem pagein : ∀ a0 a1, Statement (.pagein a0 a1) := fun _ _ _ => Nat.le_of_ble_eq_true rfl
theorem rstepBegin : ∀ a0 a1, Statement (.rstepBegin a0 a1) := fun _ _ _ => Nat.le_of_ble_eq_true rfl
theorem rstepEnd : ∀ a0, Statement (.rstepEnd a0) := fun _ _ => Nat.le_of_ble_eq_true rfl
theorem rwiden : ∀ a0 a1, Statement (.rwiden a0 a1) := fun _ _ _ => Nat.le_of_ble_eq_true rfl
theorem rnarrow : ∀ a0 a1, Statement (.rnarrow a0 a1) := fun _ _ _ => Nat.le_of_ble_eq_true rfl
theorem rview : ∀ a0 a1, Statement (.rview a0 a1) := fun _ _ _ => Nat.le_of_ble_eq_true rfl
theorem rpub : ∀ a0 a1 a2, Statement (.rpub a0 a1 a2) := fun _ _ _ _ => Nat.le_of_ble_eq_true rfl
theorem kvalloc : ∀ a0 a1, Statement (.kvalloc a0 a1) := fun _ _ _ => Nat.le_of_ble_eq_true rfl
theorem kvrel : ∀ a0 a1, Statement (.kvrel a0 a1) := fun _ _ _ => Nat.le_of_ble_eq_true rfl
theorem kvapp : ∀ a0 a1 a2, Statement (.kvapp a0 a1 a2) := fun _ _ _ _ => Nat.le_of_ble_eq_true rfl
theorem kvappMem : ∀ a0 a1, Statement (.kvappMem a0 a1) := fun _ _ _ => Nat.le_of_ble_eq_true rfl
theorem kvflush : ∀ a0 a1, Statement (.kvflush a0 a1) := fun _ _ _ => Nat.le_of_ble_eq_true rfl
theorem join : Statement .join := fun _ => Nat.le_of_ble_eq_true rfl
theorem exit : Statement .exit := fun _ => Nat.le_of_ble_eq_true rfl
theorem joint : Statement .joint := fun _ => Nat.le_of_ble_eq_true rfl
theorem bkpt : Statement .bkpt := fun _ => Nat.le_of_ble_eq_true rfl
theorem yield : Statement .yield := fun _ => Nat.le_of_ble_eq_true rfl
theorem snap : Statement .snap := fun _ => Nat.le_of_ble_eq_true rfl
theorem resume : Statement .resume := fun _ => Nat.le_of_ble_eq_true rfl
theorem longLatencyResult : Statement .longLatencyResult := fun _ => Nat.le_of_ble_eq_true rfl
theorem loadDataReturn : Statement .loadDataReturn := fun _ => Nat.le_of_ble_eq_true rfl
theorem storePerformed : Statement .storePerformed := fun _ => Nat.le_of_ble_eq_true rfl
theorem markerRelease : Statement .markerRelease := fun _ => Nat.le_of_ble_eq_true rfl
theorem jointTimeout : Statement .jointTimeout := fun _ => Nat.le_of_ble_eq_true rfl
theorem memberTimeout : Statement .memberTimeout := fun _ => Nat.le_of_ble_eq_true rfl
theorem waitmWake : Statement .waitmWake := fun _ => Nat.le_of_ble_eq_true rfl
theorem sleepExpiry : Statement .sleepExpiry := fun _ => Nat.le_of_ble_eq_true rfl
theorem yieldExpiry : Statement .yieldExpiry := fun _ => Nat.le_of_ble_eq_true rfl
theorem syscallDone : Statement .syscallDone := fun _ => Nat.le_of_ble_eq_true rfl
theorem translationWalk : Statement .translationWalk := fun _ => Nat.le_of_ble_eq_true rfl
theorem engineOpStart : Statement .engineOpStart := fun _ => Nat.le_of_ble_eq_true rfl
theorem matrixKstep : Statement .matrixKstep := fun _ => Nat.le_of_ble_eq_true rfl
theorem engineOpComplete : Statement .engineOpComplete := fun _ => Nat.le_of_ble_eq_true rfl
theorem tileSlotRelease : Statement .tileSlotRelease := fun _ => Nat.le_of_ble_eq_true rfl
theorem blockRelease : Statement .blockRelease := fun _ => Nat.le_of_ble_eq_true rfl
theorem teamHalt : Statement .teamHalt := fun _ => Nat.le_of_ble_eq_true rfl
theorem handlerStart : Statement .handlerStart := fun _ => Nat.le_of_ble_eq_true rfl
theorem teamRetire : Statement .teamRetire := fun _ => Nat.le_of_ble_eq_true rfl
theorem preemption : Statement .preemption := fun _ => Nat.le_of_ble_eq_true rfl
theorem registerEvict : Statement .registerEvict := fun _ => Nat.le_of_ble_eq_true rfl
theorem waitmEvict : Statement .waitmEvict := fun _ => Nat.le_of_ble_eq_true rfl
theorem readmit : Statement .readmit := fun _ => Nat.le_of_ble_eq_true rfl
theorem doorbell : Statement .doorbell := fun _ => Nat.le_of_ble_eq_true rfl
theorem nop : Statement .nop := fun _ => Nat.le_of_ble_eq_true rfl
theorem launch : Statement .launch := fun _ => Nat.le_of_ble_eq_true rfl
theorem rlaunch : Statement .rlaunch := fun _ => Nat.le_of_ble_eq_true rfl
theorem copy : Statement .copy := fun _ => Nat.le_of_ble_eq_true rfl
theorem signal : Statement .signal := fun _ => Nat.le_of_ble_eq_true rfl
theorem wait : Statement .wait := fun _ => Nat.le_of_ble_eq_true rfl
theorem waitSatisfied : Statement .waitSatisfied := fun _ => Nat.le_of_ble_eq_true rfl
theorem cond : Statement .cond := fun _ => Nat.le_of_ble_eq_true rfl
theorem contract : Statement .contract := fun _ => Nat.le_of_ble_eq_true rfl
theorem mark : Statement .mark := fun _ => Nat.le_of_ble_eq_true rfl
theorem packetStart : Statement .packetStart := fun _ => Nat.le_of_ble_eq_true rfl
theorem clusterPlace : Statement .clusterPlace := fun _ => Nat.le_of_ble_eq_true rfl
theorem coopReserve : Statement .coopReserve := fun _ => Nat.le_of_ble_eq_true rfl
theorem teamStart : Statement .teamStart := fun _ => Nat.le_of_ble_eq_true rfl
theorem contractPeriod : Statement .contractPeriod := fun _ => Nat.le_of_ble_eq_true rfl
theorem contractBudget : Statement .contractBudget := fun _ => Nat.le_of_ble_eq_true rfl
theorem contractDeadline : Statement .contractDeadline := fun _ => Nat.le_of_ble_eq_true rfl
theorem viewCommit : Statement .viewCommit := fun _ => Nat.le_of_ble_eq_true rfl
theorem migratePage : Statement .migratePage := fun _ => Nat.le_of_ble_eq_true rfl
theorem migrationCounterHalve : Statement .migrationCounterHalve := fun _ => Nat.le_of_ble_eq_true rfl
theorem patrolScrub : Statement .patrolScrub := fun _ => Nat.le_of_ble_eq_true rfl
theorem linkMessage : Statement .linkMessage := fun _ => Nat.le_of_ble_eq_true rfl
theorem adminDoorbell : Statement .adminDoorbell := fun _ => Nat.le_of_ble_eq_true rfl
theorem bind : Statement .bind := fun _ => Nat.le_of_ble_eq_true rfl
theorem unbind : Statement .unbind := fun _ => Nat.le_of_ble_eq_true rfl
theorem queueSet : Statement .queueSet := fun _ => Nat.le_of_ble_eq_true rfl
theorem queueReset : Statement .queueReset := fun _ => Nat.le_of_ble_eq_true rfl
theorem tableUpdate : Statement .tableUpdate := fun _ => Nat.le_of_ble_eq_true rfl
theorem faultReply : Statement .faultReply := fun _ => Nat.le_of_ble_eq_true rfl
theorem savePool : Statement .savePool := fun _ => Nat.le_of_ble_eq_true rfl
theorem blockPool : Statement .blockPool := fun _ => Nat.le_of_ble_eq_true rfl
theorem sequenceRetire : Statement .sequenceRetire := fun _ => Nat.le_of_ble_eq_true rfl
theorem demote : Statement .demote := fun _ => Nat.le_of_ble_eq_true rfl
theorem policy : Statement .policy := fun _ => Nat.le_of_ble_eq_true rfl
theorem tailShare : Statement .tailShare := fun _ => Nat.le_of_ble_eq_true rfl
theorem snapArm : Statement .snapArm := fun _ => Nat.le_of_ble_eq_true rfl
theorem preEmpt : Statement .preEmpt := fun _ => Nat.le_of_ble_eq_true rfl
theorem debug : Statement .debug := fun _ => Nat.le_of_ble_eq_true rfl
theorem fwWrite : Statement .fwWrite := fun _ => Nat.le_of_ble_eq_true rfl
theorem fwActivate : Statement .fwActivate := fun _ => Nat.le_of_ble_eq_true rfl
theorem svnCommit : Statement .svnCommit := fun _ => Nat.le_of_ble_eq_true rfl
theorem attest : Statement .attest := fun _ => Nat.le_of_ble_eq_true rfl
theorem identity : Statement .identity := fun _ => Nat.le_of_ble_eq_true rfl
theorem packageReset : Statement .packageReset := fun _ => Nat.le_of_ble_eq_true rfl
theorem recoveryGo : Statement .recoveryGo := fun _ => Nat.le_of_ble_eq_true rfl
theorem powerOff : Statement .powerOff := fun _ => Nat.le_of_ble_eq_true rfl
theorem powerCap : Statement .powerCap := fun _ => Nat.le_of_ble_eq_true rfl
theorem thermalCap : Statement .thermalCap := fun _ => Nat.le_of_ble_eq_true rfl
theorem thermalCapRelease : Statement .thermalCapRelease := fun _ => Nat.le_of_ble_eq_true rfl
theorem thermalShutdown : Statement .thermalShutdown := fun _ => Nat.le_of_ble_eq_true rfl
theorem cxlPortFailure : Statement .cxlPortFailure := fun _ => Nat.le_of_ble_eq_true rfl
theorem snapshotTrigger : Statement .snapshotTrigger := fun _ => Nat.le_of_ble_eq_true rfl
theorem fabricContextCreate : Statement .fabricContextCreate := fun _ => Nat.le_of_ble_eq_true rfl
theorem fabricContextDestroy : Statement .fabricContextDestroy := fun _ => Nat.le_of_ble_eq_true rfl
theorem exportTableWrite : Statement .exportTableWrite := fun _ => Nat.le_of_ble_eq_true rfl
theorem sessionOpen : Statement .sessionOpen := fun _ => Nat.le_of_ble_eq_true rfl
theorem sessionClose : Statement .sessionClose := fun _ => Nat.le_of_ble_eq_true rfl
theorem registerWrite : Statement .registerWrite := fun _ => Nat.le_of_ble_eq_true rfl
theorem flitReceive : Statement .flitReceive := fun _ => Nat.le_of_ble_eq_true rfl
theorem linkRetrain : Statement .linkRetrain := fun _ => Nat.le_of_ble_eq_true rfl
theorem lossOfSignal : Statement .lossOfSignal := fun _ => Nat.le_of_ble_eq_true rfl
theorem configurationRecord : Statement .configurationRecord := fun _ => Nat.le_of_ble_eq_true rfl
theorem portReenable : Statement .portReenable := fun _ => Nat.le_of_ble_eq_true rfl
theorem read : Statement .read := fun _ => Nat.le_of_ble_eq_true rfl
theorem write : Statement .write := fun _ => Nat.le_of_ble_eq_true rfl
theorem atomic : Statement .atomic := fun _ => Nat.le_of_ble_eq_true rfl
theorem reduction : Statement .reduction := fun _ => Nat.le_of_ble_eq_true rfl
theorem multicastWrite : Statement .multicastWrite := fun _ => Nat.le_of_ble_eq_true rfl
theorem multicastReduction : Statement .multicastReduction := fun _ => Nat.le_of_ble_eq_true rfl
theorem trimmedHeader : Statement .trimmedHeader := fun _ => Nat.le_of_ble_eq_true rfl
theorem readResponse : Statement .readResponse := fun _ => Nat.le_of_ble_eq_true rfl
theorem ack : Statement .ack := fun _ => Nat.le_of_ble_eq_true rfl
theorem atomicResponse : Statement .atomicResponse := fun _ => Nat.le_of_ble_eq_true rfl
theorem negative : Statement .negative := fun _ => Nat.le_of_ble_eq_true rfl
theorem resendRequest : Statement .resendRequest := fun _ => Nat.le_of_ble_eq_true rfl
theorem resend : Statement .resend := fun _ => Nat.le_of_ble_eq_true rfl
theorem aggregatedAck : Statement .aggregatedAck := fun _ => Nat.le_of_ble_eq_true rfl
theorem collectiveResult : Statement .collectiveResult := fun _ => Nat.le_of_ble_eq_true rfl
theorem fabricTimeout : Statement .fabricTimeout := fun _ => Nat.le_of_ble_eq_true rfl
theorem multicastTimeout : Statement .multicastTimeout := fun _ => Nat.le_of_ble_eq_true rfl
theorem collectiveTimeout : Statement .collectiveTimeout := fun _ => Nat.le_of_ble_eq_true rfl
theorem softError : Statement .softError := fun _ => Nat.le_of_ble_eq_true rfl
theorem hostLinkDown : Statement .hostLinkDown := fun _ => Nat.le_of_ble_eq_true rfl
theorem hostLinkUp : Statement .hostLinkUp := fun _ => Nat.le_of_ble_eq_true rfl
theorem holdEnd : Statement .holdEnd := fun _ => Nat.le_of_ble_eq_true rfl
theorem reservedPacketType : Statement .reservedPacketType := fun _ => Nat.le_of_ble_eq_true rfl
theorem atomicResultReturn : Statement .atomicResultReturn := fun _ => Nat.le_of_ble_eq_true rfl
theorem padWordWritten : Statement .padWordWritten := fun _ => Nat.le_of_ble_eq_true rfl
theorem viewRegistersWritten : Statement .viewRegistersWritten := fun _ => Nat.le_of_ble_eq_true rfl

end Sys2Proof.Laws.Words
end

