-- ==== Sys2Proof/Tests/Bench.lean ====
section
/-! SUPPORT. What the tests and witnesses stand on: small states, the issuing split of one, and a Bool for each premise of the
statements with the lemma that makes the premise of it. -/
namespace Sys2Proof.Tests

-- One theorem at a time: each evaluation that waits for the kernel holds a thread of its own.
set_option Elab.async false

open Sys2Proof.Machine

/-- One resident team of one group at its entry, changed by f. -/
def bench (f : Group → Group) : State :=
  { State.reset.withProgram [] with
    cur := ⟨0, 0, 0, BitVec.ofNat 64 programAt, 4, false, none, .nop, none⟩
    teams := [(0, { programTeam with groups := [(0, f (Group.fresh programLaunch 0 1 2 3))] })] }

/-- The bench as it stands. -/
def plain : State := bench id

/-- The issuing split changed. -/
def splitAs (f : Split → Split) : State := bench fun g => g.modSplit 0 f

/-- The team of the bench changed. -/
def teamAs (f : Team → Team) : State := { plain with teams := plain.teams.modify 0 f }

/-- Register n of the group set to a value in every lane. -/
def withV (n : Nat) (x : Word) (g : Group) : Group := { g with v := g.v.insert n ⟨Vector.replicate 32 x, 0⟩ }
def withS (n : Nat) (x : Word) (g : Group) : Group := { g with s := g.s.insert n x }
def withP (n : Nat) (x : Mask) (g : Group) : Group := { g with p := g.p.insert n x }

/-- The issuing split of a state (of the bench's, where a state has none). -/
def who (s : State) : Issuer :=
  match s.issuer? with
  | some c => c
  | none =>
    let g := Group.fresh programLaunch 0 1 2 3
    ⟨0, 0, 0, programTeam, g, ⟨0, 0, 0, 0, 0, 0, .ready, false, .ready, .none, none, none, false, none, [], 0⟩, 0, 4, false, none, .nop, none⟩

def issuesB (s : State) : Bool :=
  match s.issuer? with
  | some c => !c.team.st.isHalting && c.spl.prog.isNone && c.cut.isNone
  | none => false

theorem issues (s : State) (h : issuesB s = true) : Issues s (who s) := by
  unfold issuesB at h
  unfold who
  split at h
  · rename_i c hc
    simp only [Bool.and_eq_true, Bool.not_eq_true', Option.isNone_iff_eq_none] at h
    exact ⟨by simp [hc], by simpa [hc] using h.1.1, by simpa [hc] using h.1.2, by simpa [hc] using h.2⟩
  · cases h

def handledB (s : State) (T : Team) (G : Group) : Bool :=
  T.st == .running && G.saved == none && match s.ctxs.find? T.space with
    | some x => x.handler != 0 && !x.fatal
    | none => false

theorem handledAt (s : State) (T : Team) (G : Group) (h : handledB s T G = true) : HandledAt s T G := by
  unfold handledB at h
  split at h
  · rename_i x hx
    simp only [Bool.and_eq_true, beq_iff_eq, bne_iff_ne, Bool.not_eq_true'] at h
    exact ⟨h.1.1, h.1.2, x, hx, h.2.1, h.2.2⟩
  · simp at h

theorem handled (s : State) (h : handledB s (who s).team (who s).grp = true) : Handled s (who s) := handledAt _ _ _ h

def laneReadyB (s : State) (c : Issuer) (srcs dsts : List Nat) : Bool :=
  c.active != 0 && !dsts.any c.grp.vBusy && decide (s.alloc c.team c.grp (c.needs dsts) (c.needs dsts).length = .ok) &&
    c.badLanes srcs &&& c.active == 0

theorem laneReady (s : State) (c : Issuer) (srcs dsts : List Nat) (h : laneReadyB s c srcs dsts = true) : LaneReady s c srcs dsts := by
  unfold laneReadyB at h
  simp only [Bool.and_eq_true, beq_iff_eq, bne_iff_ne, Bool.not_eq_true', decide_eq_true_eq] at h
  exact ⟨h.1.1.1, h.1.1.2, h.1.2, h.2⟩

def memReadyB (s : State) (c : Issuer) (srcs : List Nat) (base : Option Nat) (dests : List Nat) : Bool :=
  c.active != 0 && !c.behindAcquire && decide (s.alloc c.team c.grp dests dests.length = .ok) && c.badLanes srcs &&& c.active == 0 &&
    base.all (fun b => !c.grp.sbad.contains b && !c.grp.sComing b && (!c.grp.sbad.contains (b + 1) && !c.grp.sComing (b + 1))) &&
    decide (c.active.lanes.length ≤ s.entriesFree c.team.core)

theorem memReady (s : State) (c : Issuer) (srcs : List Nat) (base : Option Nat) (dests : List Nat)
    (h : memReadyB s c srcs base dests = true) : MemReady s c srcs base dests := by
  unfold memReadyB at h
  simp only [Bool.and_eq_true, beq_iff_eq, bne_iff_ne, Bool.not_eq_true', decide_eq_true_eq, List.all_eq_true] at h
  refine ⟨h.1.1.1.1.1, h.1.1.1.1.2, h.1.1.1.2, h.1.1.2, ?_, h.2⟩
  rintro b rfl
  simpa using h.1.2

def wordReadyB (c : Issuer) (r w : List Nat) : Bool :=
  !r.any c.grp.sComing && !r.any c.grp.sbad.contains && !w.any c.grp.sBusy

theorem wordReady (c : Issuer) (r w : List Nat) (h : wordReadyB c r w = true) : WordReady c r w := by
  unfold wordReadyB at h
  simp only [Bool.and_eq_true, Bool.not_eq_true'] at h
  exact ⟨h.1.1, h.1.2, h.2⟩

/-- A check on what a list's entries are is a statement about them. -/
theorem all_of {α : Type} (l : List α) (p : α → Bool) (h : l.all p = true) : ∀ x ∈ l, p x = true := by simpa using h

theorem all32 (p : Nat → Bool) (h : (List.range 32).all p = true) : ∀ k < 32, p k = true :=
  fun k hk => all_of _ _ h k (List.mem_range.2 hk)

/-- A group with values in v1 to v9, s0 to s9 and p1, p2. -/
def stocked (g : Group) : Group :=
  { g with v := (List.range 10).map fun n => (n, ⟨Vector.replicate 32 (BitVec.ofNat 32 (16 * n)), 0⟩)
           s := (List.range 10).map fun n => (n, BitVec.ofNat 32 (n % 2 * 0 + 16 * (1 - n % 2)))
           p := [(1, 0x0000FFFF#32), (2, 0xFF00FF00#32)] }

/-- The stocked bench with some FMT. -/
def stockedFmt (f : BitVec 16) : State := bench fun g => stocked (g.modSplit 0 fun e => { e with fmt := f })

/-- The stocked bench. -/
def full : State := bench stocked

theorem full_issues : Issues full (who full) := issues _ (by decide +kernel)
theorem full_handled : Handled full (who full) := handled _ (by decide +kernel)

end Sys2Proof.Tests
end

