-- ==== Sys2Proof/Tests/ControlWitness.lean ====
section
/-! SUPPORT. States and operands that meet the premises of the statements about control flow, special registers, hearth registers and
the handler. -/
namespace Sys2Proof.Tests

-- One theorem at a time: each evaluation that waits for the kernel holds a thread of its own.
set_option Elab.async false

open Sys2Proof Sys2Proof.Machine

theorem witness_CALL : WordReady (who full) [] [4, 5] := wordReady _ _ _ (by decide +kernel)

theorem witness_jumps : ∀ w ∈ jumps 4 5 9 1 1, WordReady (who full) w.reads [] := by
  have h : (jumps 4 5 9 1 1).all (fun w => wordReadyB (who full) w.reads []) = true := by decide +kernel
  exact fun w hw => wordReady _ _ _ (all_of _ _ h w hw)

/-- A goal in s2, s3. -/
def goalAt (x : Word) : State := bench fun g => withS 3 0 (withS 2 x (stocked g))

theorem witness_BRX : Issues (goalAt 0x40100) (who (goalAt 0x40100)) ∧ WordReady (who (goalAt 0x40100)) [2, 3] [] ∧
    (pair ((who (goalAt 0x40100)).grp.sreg 3) ((who (goalAt 0x40100)).grp.sreg 2)).toNat % 4 = 0 :=
  ⟨issues _ (by decide +kernel), wordReady _ _ _ (by decide +kernel), by decide +kernel⟩
theorem witness_BRX_align : Issues (goalAt 0x40102) (who (goalAt 0x40102)) ∧ WordReady (who (goalAt 0x40102)) [2, 3] [] ∧
    (pair ((who (goalAt 0x40102)).grp.sreg 3) ((who (goalAt 0x40102)).grp.sreg 2)).toNat % 4 ≠ 0 ∧ Handled (goalAt 0x40102) (who (goalAt 0x40102)) :=
  ⟨issues _ (by decide +kernel), wordReady _ _ _ (by decide +kernel), by decide +kernel, handled _ (by decide +kernel)⟩

/-! ### Divergence and joins -/

/-- p1 in the stocked bench. -/
def voting (m : Mask) : State := bench fun g => withP 1 m (stocked g)

theorem witness_BDIV_all : Issues (voting 0xFFFFFFFF) (who (voting 0xFFFFFFFF)) ∧
    (who (voting 0xFFFFFFFF)).spl.act &&& (who (voting 0xFFFFFFFF)).grp.pred 1 = (who (voting 0xFFFFFFFF)).spl.act :=
  ⟨issues _ (by decide +kernel), by decide +kernel⟩
theorem witness_BDIV_none : Issues (voting 0) (who (voting 0)) ∧ (who (voting 0)).spl.act &&& (who (voting 0)).grp.pred 1 = 0 ∧
    (who (voting 0)).spl.act ≠ 0 := ⟨issues _ (by decide +kernel), by decide +kernel, by decide +kernel⟩
theorem witness_BDIV_some : Issues full (who full) ∧ (who full).spl.act &&& (who full).grp.pred 1 ≠ 0 ∧
    (who full).spl.act &&& (who full).grp.pred 1 ≠ (who full).spl.act ∧ (who full).mayDivide 2 :=
  ⟨full_issues, by decide +kernel, by decide +kernel, by unfold Issuer.mayDivide; decide +kernel⟩

/-- v1 holds lane mod m times k; behind the word at 4 instructions' distance, a table of two offsets. -/
def indexed (m k : Nat) : State :=
  (bench fun g => { stocked g with v := (stocked g).v.insert 1 ⟨Vector.ofFn fun i => BitVec.ofNat 32 (i.val % m * k), 0⟩ }).store
    (programAt + 16) (natBytes 4 2 ++ natBytes 4 7 ++ natBytes 4 9)

/-- The premises of BIDX's clauses on the table. -/
theorem witness_BIDX_table : Issues (indexed 2 1) (who (indexed 2 1)) ∧ (who (indexed 2 1)).badLanes [1] &&& (who (indexed 2 1)).spl.act = 0 ∧
    (who (indexed 2 1)).reads (indexed 2 1) (BitVec.ofNat 64 (programAt + 16)) .fetch 2 ∧
    (∀ x ∈ [0, 1], (who (indexed 2 1)).reads (indexed 2 1) (BitVec.ofNat 64 (programAt + 20 + 4 * x)) .fetch (BitVec.ofNat 32 (7 + 2 * x))) ∧
    (who (indexed 2 1)).mayDivide 2 := by
  refine ⟨issues _ (by decide +kernel), by decide +kernel, ⟨by decide +kernel, programAt + 16, by decide +kernel⟩, ?_,
    by unfold Issuer.mayDivide; decide +kernel⟩
  intro x hx
  simp only [List.mem_cons, List.not_mem_nil, or_false] at hx
  rcases hx with rfl | rfl
  · exact ⟨by decide +kernel, programAt + 20, by decide +kernel⟩
  · exact ⟨by decide +kernel, programAt + 24, by decide +kernel⟩

/-- Two indices are held, one is, one lies beyond the table. -/
theorem witness_BIDX_lanes : (∀ k < 32, (who (indexed 2 1)).lane 1 k = BitVec.ofNat 32 (k % 2)) ∧
    (∀ k < 32, (who (indexed 1 1)).lane 1 k = 0) ∧
    Handled (indexed 2 5) (who (indexed 2 5)) ∧ (0xAAAAAAAA#32 : Mask) ≠ 0 ∧ ∀ k < 32, Mask.has 0xAAAAAAAA k =
      ((who (indexed 2 5)).spl.act.has k && decide ((2#32).toNat ≤ ((who (indexed 2 5)).lane 1 k).toNat)) := by
  refine ⟨?_, ?_, handled _ (by decide +kernel), by decide, ?_⟩
  · exact fun k hk => by simpa using all32 (fun k => decide ((who (indexed 2 1)).lane 1 k = BitVec.ofNat 32 (k % 2))) (by decide +kernel) k hk
  · exact fun k hk => by simpa using all32 (fun k => decide ((who (indexed 1 1)).lane 1 k = 0)) (by decide +kernel) k hk
  · exact fun k hk => by simpa using all32 (fun k => decide (Mask.has 0xAAAAAAAA k =
      ((who (indexed 2 5)).spl.act.has k && decide ((2#32).toNat ≤ ((who (indexed 2 5)).lane 1 k).toNat)))) (by decide +kernel) k hk

/-- A parent in entry 1 with two children, 0 that issues and 2. Its join point is j instructions into the program; the sibling's state. -/
def joining (j : Nat) (sib : SplitSt) (jto : Word) : State := bench fun g =>
  let e : Split := { mask := 0x0000FFFF, act := 0x0000FFFF, pc := BitVec.ofNat 64 programAt, jpc := BitVec.ofNat 55 (programAt / 4 + j), fmt := 3,
                     parent := 1, st := .ready, tof := false, back := .ready, wait := .none, mark := none, timer := none, joint := false, prog := none, later := [],
                     all := 0x0000FFFF }
  { stocked g with jto := jto, splits := [(0, e), (1, { e with mask := 0xFFFFFFFF, act := 0xFFFFFFFF, st := .parent }),
    (2, { e with mask := 0xFFFF0000, act := 0xFFFF0000, st := sib })] }

theorem witness_JOIN_away : let s := joining 5 .ready 0
    Issues s (who s) ∧ (who s).spl.parent ≠ (who s).sid ∧ ∃ P, (who s).grp.splits.find? (who s).spl.parent = some P ∧ P.st = .parent ∧
      (who s).pc ≠ (0#7 ++ P.jpc ++ 0#2 : BitVec 64) :=
  ⟨issues _ (by decide +kernel), by decide +kernel, _, rfl, rfl, by decide +kernel⟩
theorem witness_JOIN_top : Issues full (who full) ∧ (who full).spl.parent = (who full).sid := ⟨full_issues, by decide +kernel⟩
theorem witness_JOIN_early (jto : Word) (h : jto = 0 ∨ jto = 7) : let s := joining 0 .ready jto
    Issues s (who s) ∧ (who s).spl.parent ≠ (who s).sid ∧ ∃ P, (who s).grp.splits.find? (who s).spl.parent = some P ∧ P.st = .parent ∧
      (who s).pc = (0#7 ++ P.jpc ++ 0#2 : BitVec 64) ∧ P.jpc ≠ 0 ∧ (who s).spl.act ≠ 0 ∧ (who s).spl.mask ≠ 0 ∧
      Undisturbed (who s).grp [(who s).sid] none ∧ (who s).grp.jto = jto := by
  rcases h with rfl | rfl <;>
    exact ⟨issues _ (by decide +kernel), by decide +kernel, _, rfl, rfl, by decide +kernel, by decide +kernel, by decide +kernel,
      by decide +kernel, by unfold Undisturbed; decide +kernel, rfl⟩
theorem witness_JOIN_last : let s := joining 0 .arrived 0
    let kids := (who s).grp.splits.filter (fun x => x.1 != (who s).spl.parent && x.2.parent == (who s).spl.parent)
    Issues s (who s) ∧ ∃ P, (who s).grp.splits.find? (who s).spl.parent = some P ∧ P.st = .parent ∧
      (who s).pc = (0#7 ++ P.jpc ++ 0#2 : BitVec 64) ∧ P.jpc ≠ 0 ∧ (∀ x ∈ kids, x.1 ≠ (who s).sid → x.2.st = .arrived) ∧
      (∀ x ∈ kids, x.1 ≠ P.parent) ∧ Undisturbed (who s).grp (kids.map Prod.fst) (some (who s).spl.parent) ∧ (who s).team.st = .running :=
  ⟨issues _ (by decide +kernel), _, rfl, rfl, by decide +kernel, by decide +kernel, by decide +kernel, by decide +kernel,
    by unfold Undisturbed; decide +kernel, rfl⟩

/-! ### EXIT -/

/-- Two top splits of 16 lanes each. -/
def twoSplits : State := bench fun g =>
  let h := stocked (g.modSplit 0 fun e => { e with mask := 0x0000FFFF, act := 0x0000FFFF })
  { h with splits := h.splits ++ (g.splits.map fun x => (1, { x.2 with mask := 0xFFFF0000#32, act := 0xFFFF0000#32, parent := 1 })) }

/-- An outstanding kind-L instruction without accesses left. -/
def anOp (id : Nat) (kind : LKind) : LOp :=
  ⟨id, BitVec.ofNat 64 programAt, 0, 0xFFFFFFFF, 0, false, kind, [], [], [], 0, [], [], [], [], [], false⟩

/-- The stocked bench with an instruction outstanding. -/
def busy : State := bench fun g => { stocked g with ops := [{ anOp 0 .unit with res := [(0, [5])] }], nextOp := 1 }

theorem witness_EXIT_some : let s := twoSplits
    Issues s (who s) ∧ (who s).grp.saved = none ∧ (who s).spl.mask = (who s).spl.act ∧ (who s).grp.alive &&& ~~~(who s).spl.act ≠ 0 ∧
      Undisturbed (who s).grp [(who s).sid] none :=
  ⟨issues _ (by decide +kernel), rfl, by decide +kernel, by decide +kernel, by unfold Undisturbed; decide +kernel⟩
theorem witness_EXIT_last : Issues full (who full) ∧ (who full).grp.saved = none ∧ (who full).grp.splits = [((who full).sid, (who full).spl)] ∧
    (who full).spl.parent = (who full).sid ∧ (who full).spl.mask = (who full).grp.alive ∧ (who full).spl.act = (who full).grp.alive ∧
    (who full).grp.ops = [] ∧ (who full).grp.held = [] :=
  ⟨full_issues, rfl, rfl, by decide +kernel, by decide +kernel, by decide +kernel, rfl, rfl⟩
theorem witness_EXIT_waits : Issues busy (who busy) ∧ (who busy).grp.saved = none ∧ (who busy).spl.parent = (who busy).sid ∧
    (who busy).grp.alive &&& ~~~(who busy).spl.mask = 0 ∧ (who busy).grp.ops.any (who busy).grp.outstanding = true :=
  ⟨issues _ (by decide +kernel), rfl, by decide +kernel, by decide +kernel, by decide +kernel⟩

/-! ### Waits -/

/-- A monitored address in s2, s3; the word there; the expected value in s4. -/
def watching (a x y : Word) : State := (bench fun g => withS 4 y (withS 3 0 (withS 2 a (stocked g)))).store 0x50000 (wordBytes x)

theorem witness_TRAP : Issues full (who full) ∧ Handled full (who full) := ⟨full_issues, full_handled⟩
theorem witness_WAITM (x : Word) (h : x = 5 ∨ x = 6) : let s := watching 0x50000 5 x
    Issues s (who s) ∧ WordReady (who s) [2, 3, 4] [] ∧ (pair ((who s).grp.sreg 3) ((who s).grp.sreg 2)).toNat % 4 = 0 ∧
      (who s).reads s (pair ((who s).grp.sreg 3) ((who s).grp.sreg 2)) .read 5 ∧ (who s).grp.sreg 4 = x := by
  rcases h with rfl | rfl <;>
    exact ⟨issues _ (by decide +kernel), wordReady _ _ _ (by decide +kernel), by decide +kernel, ⟨by decide +kernel, 0x50000, by decide +kernel⟩, by decide +kernel⟩
theorem witness_WAITM_align : let s := watching 0x50002 5 5
    Issues s (who s) ∧ WordReady (who s) [2, 3, 4] [] ∧ (pair ((who s).grp.sreg 3) ((who s).grp.sreg 2)).toNat % 4 ≠ 0 ∧
      windowOf (pair ((who s).grp.sreg 3) ((who s).grp.sreg 2)).toNat ≠ 4 ∧ Handled s (who s) :=
  ⟨issues _ (by decide +kernel), wordReady _ _ _ (by decide +kernel), by decide +kernel, by decide +kernel, handled _ (by decide +kernel)⟩

/-! ### Special registers -/

/-- What a handler of the bench has set aside; a v1 of 7 in every lane, an interrupted split. -/
def aside : Saved :=
  { v := [(1, ⟨Vector.replicate 32 7, 0⟩)], p := [], splits := (Group.fresh programLaunch 0 1 2 3).splits.map fun x => (x.1, { x.2 with st := .frozen })
    held := [], firstOp := 0, handled := 0, rpch := 0 }

/-- The bench in its handler. -/
def handling : State := { bench (fun g => { stocked g with saved := some aside, tvsel := 1 }) with
  teams := [(0, { programTeam with st := .halted, handling := some 0, groups := [(0, { stocked (Group.fresh programLaunch 0 1 2 3) with saved := some aside, tvsel := 1 })] })] }

theorem witness_GETSR_user : Issues full (who full) ∧ (who full).grp.sBusy 4 = false ∧
    ∃ L, full.launches.find? (who full).team.launch = some L ∧ (0x011, BitVec.ofNat 32 (64 * 65536)) ∈ userNumbers (who full) L :=
  ⟨full_issues, by decide +kernel, programLaunch, by decide +kernel, by decide +kernel⟩
theorem witness_GETSR_handler : Issues handling (who handling) ∧ (who handling).grp.sBusy 4 = false ∧ (who handling).grp.saved = some aside ∧
    ∃ H, (who handling).team.groups.find? ((who handling).grp.hgsel.toNat % 32) = some H ∧ H.retired = false ∧ (0x101, 7) ∈ handlerNumbers (who handling) aside H ∧
      ((who handling).grp.ops.any fun o => !o.handler && o.dests.contains ((who handling).grp.tvsel.toNat % 64)) = false ∧
      (SMap.getD aside.v ((who handling).grp.tvsel.toNat % 64) VReg.zero).bad.getLsbD ((who handling).grp.tvsel.toNat / 256 % 32) = false :=
  ⟨issues _ (by decide +kernel), by decide +kernel, rfl, _, rfl, rfl, by decide +kernel, by decide +kernel, by decide +kernel⟩
/-- Numbers at the edges of the ranges that PRIV and ILLEGAL cover. -/
theorem witness_GETSR_numbers : (0x100 ≤ (0x100#9).toNat) ∧ (0x100 ≤ (0x1FF#9).toNat) ∧ (0x014 ≤ (0x014#9).toNat ∧ (0x01F#9).toNat < 0x020) ∧
    (0x023 ≤ (0x023#9).toNat ∧ (0x0FF#9).toNat < 0x100) := by decide

/-- s4 of the stocked bench. -/
def s4 (x : Word) : State := bench fun g => withS 4 x (stocked g)

theorem witness_SETSR_EXM : let s := s4 0x0000F0F0
    Issues s (who s) ∧ (who s).grp.sbad.contains 4 = false ∧ (who s).spl.act &&& (who s).grp.sreg 4 ≠ 0 ∧ (who s).spl.mask ≠ 0 ∧
      Undisturbed (who s).grp [(who s).sid] none :=
  ⟨issues _ (by decide +kernel), by decide +kernel, by decide +kernel, by decide +kernel, by unfold Undisturbed; decide +kernel⟩
/-- Reserved bits of SCV; numbers that SETSR does not write, at the edges of their ranges. -/
theorem witness_SETSR_illegal : (who (s4 0x80)).grp.sreg 4 &&& 0xFFFFC0C0#32 ≠ 0 ∧ Handled (s4 0x80) (who (s4 0x80)) ∧
    (who (s4 0x80)).grp.sComing 4 = false ∧ ∀ n ∈ [0x002, 0x007, 0x00B, 0x0FF], n < 0x100 ∧ n ∉ [0x000, 0x001, 0x008, 0x009, 0x00A] :=
  ⟨by decide +kernel, handled _ (by decide +kernel), by decide +kernel, by decide⟩
theorem witness_SETSR_values : ((who (s4 0xFFFF)).grp.sreg 4).toNat < 2 ^ 16 ∧ ¬ ((who (s4 0x10000)).grp.sreg 4).toNat < 2 ^ 16 ∧
    (who (s4 0x3F3F)).grp.sreg 4 &&& 0xFFFFC0C0#32 = 0 ∧ Handled (s4 0x10000) (who (s4 0x10000)) :=
  ⟨by decide +kernel, by decide +kernel, by decide +kernel, handled _ (by decide +kernel)⟩

/-- s4 in the handler. -/
def handling4 (x : Word) : State := { handling with teams := handling.teams.modify 0 fun T => { T with groups := T.groups.modify 0 (withS 4 x) } }

theorem witness_HandlerRegisterWrites : let s := handling4 0x1F00
    Issues s (who s) ∧ (who s).grp.sbad.contains 4 = false ∧ (who s).grp.saved = some aside ∧ (who s).grp.sreg 4 &&& 0xFFFFE0C0#32 = 0 ∧
      (who s).grp.sreg 4 % 4 = 0 ∧ (∀ o ∈ (who s).grp.ops, o.due (who s).grp.padFault = false) ∧ (who s).grp.sComing 4 = false ∧
      ((who s).grp.ops.any fun o => !o.handler && o.dests.contains ((who s).grp.tvsel.toNat % 64)) = false ∧
      (SMap.find? aside.v ((who s).grp.tvsel.toNat % 64)).isSome = true ∧ (SMap.find? aside.splits aside.handled).isSome = true ∧
      (who (handling4 0x1F)).grp.sreg 4 &&& 0xFFFFFFE0#32 = 0 :=
  ⟨issues _ (by decide +kernel), by decide +kernel, rfl, by decide +kernel, by decide +kernel, by decide +kernel, by decide +kernel,
    by decide +kernel, by decide +kernel, by decide +kernel, by decide +kernel⟩

/-! ### Hearth registers, services, the handler's end -/

/-- Hearth register 3 of the team, claimed in some cycle. -/
def hearth3 (o : Option Nat) (cycle : Nat) : State :=
  { full with teams := full.teams.modify 0 fun T => { T with hearth := [(3, ⟨5, o, (cycle, 0)⟩)] } }

theorem witness_hearth : (∀ o ∈ [none, some 0, some 1], issuesB (hearth3 o 9) = true) ∧
    (SMap.getD (who (hearth3 none 9)).team.hearth 3 ⟨0, none, (0, 0)⟩).owner = none ∧
    (SMap.getD (who (hearth3 (some 0) 9)).team.hearth 3 ⟨0, none, (0, 0)⟩).owner = some (who (hearth3 (some 0) 9)).gid ∧
    (SMap.getD (who (hearth3 (some 1) 9)).team.hearth 3 ⟨0, none, (0, 0)⟩).owner = some 1 ∧ 1 ≠ (who (hearth3 (some 1) 9)).gid ∧
    Handled (hearth3 (some 1) 9) (who (hearth3 (some 1) 9)) ∧ WordReady (who (hearth3 none 9)) [4] [] ∧ WordReady (who (hearth3 none 9)) [] [4] :=
  ⟨by decide +kernel, by decide +kernel, by decide +kernel, by decide +kernel, by decide +kernel, handled _ (by decide +kernel),
    wordReady _ _ _ (by decide +kernel), wordReady _ _ _ (by decide +kernel)⟩

/-- Group 1 has claimed in this cycle, or in another one. -/
theorem witness_hearth_cycles : ∀ far ∈ [0, 9], let s := hearth3 (some 1) (full.issueCycle (who full) + far)
    issuesB s = true ∧ (who s).gid < 1 ∧ ((SMap.getD (who s).team.hearth 3 ⟨0, none, (0, 0)⟩).claim.1 = s.issueCycle (who s) ↔ far = 0) := by
  decide +kernel

/-- The bench's address space changed. -/
def spaceAs (s : State) (f : Ctx → Ctx) : State := { s with ctxs := s.ctxs.modify 1 f }

theorem witness_SNAP (b : Bool) : let s := spaceAs full fun x => { x with armed := b }
    issuesB s = true ∧ ∃ x, s.ctxs.find? (who s).team.space = some x ∧ x.armed = b := by
  cases b <;> exact ⟨by decide +kernel, _, rfl, rfl⟩

/-- The bench with a service ring at 0x60000. -/
def ringed : State := spaceAs full fun x => { x with ring := 0x60000, entries := 4 }

theorem witness_SYSCALL_priv : WordReady (who full) (List.range 8) [0, 1] ∧ Handled full (who full) ∧ ∃ x, full.ctxs.find? (who full).team.space = some x ∧
    x.ring = 0 := ⟨wordReady _ _ _ (by decide +kernel), full_handled, _, rfl, rfl⟩
theorem witness_SYSCALL : Issues ringed (who ringed) ∧ WordReady (who ringed) (List.range 8) [0, 1] ∧
    ∃ x L, ringed.ctxs.find? (who ringed).team.space = some x ∧ x.ring ≠ 0 ∧ 0 < x.entries ∧ ringed.launches.find? (who ringed).team.launch = some L ∧
      (who ringed).grp.ops = [] ∧ (who ringed).grp.wbuf = [] ∧ ringed.flushed (who ringed).tid (who ringed).gid = true ∧
      ringed.translate (who ringed).team.space (x.ring.toNat + 64 * (x.ringNext % x.entries)) .write true = .hit 0x60000 ∧
      ringed.nat 0x60000 4 < 2 ^ 31 :=
  ⟨issues _ (by decide +kernel), wordReady _ _ _ (by decide +kernel), _, programLaunch, rfl, by decide +kernel, by decide +kernel, by decide +kernel, rfl, rfl,
    by decide +kernel, by decide +kernel, by decide +kernel⟩

theorem witness_RESUME : Issues handling (who handling) ∧ (who handling).grp.saved = some aside ∧ aside.held = [] ∧
    ∀ g ∈ (who handling).team.groups, g.2.held = [] ∧ g.2.pending = [] ∧ ∀ y, g.2.saved = some y → y.held = [] := by
  refine ⟨issues _ (by decide +kernel), rfl, rfl, fun g hg => ?_⟩
  simp only [show (who handling).team.groups = [(0, { stocked (Group.fresh programLaunch 0 1 2 3) with saved := some aside, tvsel := 1 })] from rfl,
    List.mem_singleton] at hg
  subst hg
  exact ⟨rfl, rfl, fun y hy => by cases hy; rfl⟩

end Sys2Proof.Tests
end

