-- ==== Sys2Proof/Tests/TileWitness.lean ====
section
/-! SUPPORT. States and operands that meet the premises of the statements about tiles, engine commands, futures and steps. -/
namespace Sys2Proof.Tests

-- One theorem at a time: each evaluation that waits for the kernel holds a thread of its own.
set_option Elab.async false

open Sys2Proof Sys2Proof.Machine

/-- A slot in use by the bench's team. -/
def slotOf (kind : Nat) : TileSlot := ⟨true, false, 0, kind, 0, 0, 0, 0, false, [], []⟩

/-- The stocked bench with slots 0, 1, … of these kinds and a handle of slot n in t[n], changed by f. -/
def tiled (kinds : List Nat) (f : Group → Group) : State :=
  let s := bench fun g => f { stocked g with t := (List.range kinds.length).map fun n => (n, BitVec.ofNat 16 n) }
  { s with cores := s.cores.modify 0 fun c => { c with tiles := (List.range kinds.length).map fun n => (n, slotOf (kinds.getD n 0)) }
           teams := s.teams.modify 0 fun T => { T with slots := List.range kinds.length } }

theorem tilesOk (s : State) (c : Issuer) (ts : List (Nat × Option Nat))
    (h : ts.all (fun r => match s.tile? c r.1 with | some x => r.2.all (x.2.kind == ·) | none => false) = true) : TilesOk s c ts := by
  intro r hr
  have := all_of _ _ h r hr
  split at this
  · rename_i x hx
    refine ⟨x.1, x.2, hx, fun k hk => ?_⟩
    simpa [hk] using this
  · cases this

theorem roomy (s : State) (k : Nat) (h : (s.ectxs.find? k).any (fun x => !x.full) = true) : Roomy s k := by
  unfold Roomy
  cases hx : s.ectxs.find? k with
  | none => simp [hx] at h
  | some x => exact ⟨x, rfl, by simpa [hx] using h⟩

/-! ### Slots -/

theorem witness_TALLOC : let s := tiled [0] id
    Issues s (who s) ∧ (who s).team.slots.length < (who s).team.quota ∧ 1 < 4 * ((s.core (who s).team.core).partition.toNat / 2 ^ 12 % 64) ∧
      SMap.find? (s.core (who s).team.core).tiles 1 = none ∧ ∃ x, SMap.find? (s.core (who s).team.core).tiles 0 = some x ∧ x.alloc = true :=
  ⟨issues _ (by decide +kernel), by decide +kernel, by decide +kernel, by decide +kernel, _, rfl, rfl⟩
theorem witness_TALLOC_waits : let s := tiled [0, 1, 2, 3] id
    Issues s (who s) ∧ (who s).team.quota ≠ 0 ∧ (who s).team.quota ≤ (who s).team.slots.length :=
  ⟨issues _ (by decide +kernel), by decide +kernel, by decide +kernel⟩
theorem witness_TALLOC_quota : let s := teamAs fun T => { T with quota := 0 }
    Issues s (who s) ∧ (who s).team.quota = 0 ∧ Handled s (who s) :=
  ⟨issues _ (by decide +kernel), by decide +kernel, handled _ (by decide +kernel)⟩
theorem witness_TFREE : let s := tiled [0] id
    (s.tile? (who s) 0).map Prod.fst = some 0 ∧ s.tile? (who s) 5 = none ∧ Handled s (who s) :=
  ⟨by decide +kernel, by decide +kernel, handled _ (by decide +kernel)⟩

/-- A latch that group 0 keeps for group 0 itself; its value, if it is full. -/
def latched (h : Option (BitVec 16)) : State := tiled [0] fun g => { g with latches := h.toList.map fun x => (0, x) }

theorem witness_TGIVE : let s := latched none
    Issues s (who s) ∧ (who s).team.groups.find? 0 = some (who s).grp ∧ s.tile? (who s) 0 ≠ none ∧ SMap.find? (who s).grp.latches (who s).gid = none ∧
      (who s).grp.retired = false ∧ s.tile? (who s) 5 = none ∧ Handled s (who s) :=
  ⟨issues _ (by decide +kernel), rfl, by decide +kernel, rfl, rfl, by decide +kernel, handled _ (by decide +kernel)⟩
theorem witness_TTAKE : let s := latched (some 7)
    Issues s (who s) ∧ (who s).team.groups.find? 0 = some (who s).grp ∧ SMap.find? (who s).grp.latches 0 = some 7 :=
  ⟨issues _ (by decide +kernel), rfl, by decide +kernel⟩

/-- A giver, group 1 of the team, that has retired. -/
def giverGone : State := { full with teams := full.teams.modify 0 fun T =>
  { T with groups := T.groups ++ [(1, { Group.fresh programLaunch 1 1 2 3 with retired := true })] } }

theorem witness_TTAKE_gone : let s := giverGone
    Issues s (who s) ∧ Handled s (who s) ∧ SMap.find? (who s).grp.latches 1 = none ∧ ∃ G, (who s).team.groups.find? 1 = some G ∧ G.retired = true :=
  ⟨issues _ (by decide +kernel), handled _ (by decide +kernel), rfl, _, rfl, rfl⟩

theorem witness_TileReaders : let s := tiled [0] id
    Issues s (who s) ∧ s.tile? (who s) 0 = some (0, slotOf 0) ∧ s.alloc (who s).team (who s).grp [12, 13] 2 = .ok ∧
      (who s).grp.sComing 6 = false ∧ (who s).grp.sComing 7 = false :=
  ⟨issues _ (by decide +kernel), by decide +kernel, by decide +kernel, by decide +kernel, by decide +kernel⟩
/-- Phase 0 is over for waits on phases 127 and 64, not for 0 and 63. -/
theorem witness_TAWT_edges : (∀ p ∈ [127, 64], 1 ≤ ((0 : Int) - p) % 128 ∧ ((0 : Int) - p) % 128 ≤ 64) ∧
    ∀ p ∈ [0, 63], ¬ (1 ≤ ((0 : Int) - p) % 128 ∧ ((0 : Int) - p) % 128 ≤ 64) := by decide

/-! ### Tile and engine commands -/

/-- Whether a command's premises hold. -/
def commandB (s : State) (w : Command) : Bool :=
  !w.reads.any (who s).grp.sbad.contains && w.ok s (who s) && (s.ectxs.find? (w.ctx s (who s))).any (fun x => !x.full) &&
    w.tiles.all (fun r => match s.tile? (who s) r.1 with | some x => r.2.all (x.2.kind == ·) | none => false)

theorem command (s : State) (w : Command) (h : commandB s w = true) : (w.reads.any (who s).grp.sbad.contains) = false ∧
    TilesOk s (who s) w.tiles ∧ w.ok s (who s) = true ∧ Roomy s (w.ctx s (who s)) := by
  unfold commandB at h
  simp only [Bool.and_eq_true, Bool.not_eq_true'] at h
  exact ⟨h.1.1.1, tilesOk _ _ _ h.2, h.1.1.2, roomy _ _ h.1.2⟩

/-- Tiles of the kinds of R159, once for each operand list that the commands ask for. -/
def forVector : List (List Nat × (Nat → Option Command)) :=
  let ws (d a b : BitVec 5) : List Command := tileCommands d a b false false false 0 0 0 0 3
  [([0], fun _ => (ws 0 0 0)[0]?), ([1, 1, 4], fun _ => (ws 0 1 2)[1]?), ([1, 0, 3], fun _ => (ws 0 1 2)[2]?), ([0, 0, 3], fun _ => (ws 0 1 2)[3]?),
    ([0, 0, 3], fun _ => (ws 0 1 2)[4]?), ([0, 0], fun _ => (ws 0 1 1)[5]?), ([0, 0, 0], fun _ => (ws 0 1 2)[6]?), ([0], fun _ => (ws 0 0 1)[7]?)]

theorem witness_tile_commands : ∀ x ∈ forVector, issuesB (tiled x.1 id) = true ∧ ((x.2 0).any fun w => commandB (tiled x.1 id) w) = true := by
  have h : forVector.all (fun x => issuesB (tiled x.1 id) && (x.2 0).any fun w => commandB (tiled x.1 id) w) = true := by decide +kernel
  exact fun x hx => by simpa using all_of _ _ h x hx

/-- The bench with weight-buffer entry 3 loaded for its address space. -/
def weighted (s : State) : State := { s with cores := s.cores.modify 0 fun c => { c with weights := [(3, ⟨0, false, 0, 1, [], []⟩)] } }

theorem witness_matrix_commands : ((matrixCommands 0 1 2 0)[0]?.any fun w => commandB (tiled [0, 1, 2] id) w) = true ∧
    ((matrixCommands 0 1 3 0)[1]?.any fun w => commandB (weighted (tiled [0, 1] id)) w) = true ∧
    ((matrixCommands 0 1 3 0)[2]?.any fun w => commandB (tiled [0, 1, 2, 4] id) w) = true ∧
    ((matrixCommands 0 1 2 0)[3]?.any fun w => commandB (tiled [5, 1, 2] id) w) = true := by decide +kernel

/-- Descriptors in s16 and up: addresses in ordinary windows, small counts; a step open on record 0x80000; a fabric context 9, encoder session 12. -/
def described (kinds : List Nat) (hi : Word) : State :=
  let s := tiled kinds fun g => { g with
    s := g.s ++ [(16, 0x80000), (17, 0), (18, 0x81000), (19, hi), (20, 0x82000), (21, 0), (22, 4), (24, 12)]
    step := some ⟨0x80000, 0, 0, false⟩ }
  { s with
    ectxs := s.ectxs ++ [(9, ⟨.fabric, 1, 0, 0, [], [], []⟩), (12, ⟨.encoder 0, 1, 0, 0, [], [], []⟩)]
    launches := s.launches.modify 4 fun L => { L with fabric := 9 }
    pkg := { s.pkg with sessions := [(0, ⟨[], 12, 0, true, 1, 0, 0⟩)] } }

theorem witness_copy_commands : ∀ w ∈ (copyCommands 2 16 24 0 3 1).take 6 ++ (copyCommands 2 16 24 0 3 1).drop 8, w.tiles.length ≤ 1 →
    issuesB (described [0] 0) = true ∧ (w.reads.any (who (described [0] 0)).grp.sbad.contains) = false ∧ TilesOk (described [0] 0) (who (described [0] 0)) w.tiles ∧
      w.ok (described [0] 0) (who (described [0] 0)) = true ∧ Roomy (described [0] 0) (w.ctx (described [0] 0) (who (described [0] 0))) := by
  have h : ((copyCommands 2 16 24 0 3 1).take 6 ++ (copyCommands 2 16 24 0 3 1).drop 8).all
      (fun w => decide (2 ≤ w.tiles.length) || commandB (described [0] 0) w) = true := by decide +kernel
  intro w hw hl
  have := all_of _ _ h w hw
  simp only [Bool.or_eq_true, decide_eq_true_eq] at this
  exact ⟨by decide +kernel, command _ _ (this.resolve_left (by omega))⟩

/-- KVAPP in both forms, RPUB. The count lies in s18. -/
def counted (kinds : List Nat) : State :=
  let s := described kinds 0
  { s with teams := s.teams.modify 0 fun T => { T with groups := T.groups.modify 0 fun g => { g with s := g.s.insert 18 4 } } }

theorem witness_kv_commands :
    ((copyCommands 2 16 24 0 3 1)[6]?.any fun w => commandB (counted [0, 0]) w) = true ∧ ((copyCommands 2 16 24 0 3 1)[7]?.any fun w => commandB (counted []) w) = true ∧
    ((copyCommands 2 16 24 0 3 1)[9]?.any fun w => commandB (counted [0, 3]) w) = true := by decide +kernel

/-- The high words of the first two descriptor addresses. -/
def farHigh (lo hi : Word) (kinds : List Nat) : State :=
  let s := described kinds hi
  { s with teams := s.teams.modify 0 fun T => { T with groups := T.groups.modify 0 fun g => { g with s := g.s.insert 17 lo } } }

theorem witness_far_commands :
    (issuesB (farHigh 0 4 [2, 2, 5]) && (farCommands 2 16 24 0 1 true 0 1)[0]?.any fun w => commandB (farHigh 0 4 [2, 2, 5]) w) = true ∧
    ((farCommands 2 16 24 0 1 true 0 1)[1]?.any fun w => commandB (farHigh 0 0x01000000 []) w && commandB (farHigh 0x01000000 0 []) w) = true ∧
    ((farCommands 2 16 24 0 1 true 0 1)[2]?.any fun w => commandB (farHigh 0 0x01800000 []) w) = true ∧
    ((farCommands 2 16 24 0 1 true 0 1).drop 3).all (fun w => commandB (described [] 0) w) = true := by decide +kernel

theorem witness_WBLD : let s := described [] 0
    (who s).grp.sbad.contains 16 = false ∧ (who s).grp.sbad.contains 17 = false ∧ ∃ x, s.ectxs.find? (who s).grp.cctx = some x ∧ x.full = false :=
  ⟨by decide +kernel, by decide +kernel, _, rfl, by decide +kernel⟩

theorem witness_stale : let s := tiled [1, 1] id
    Issues s (who s) ∧ Handled s (who s) ∧ ((tileCommands 0 1 5 false false false 0 0 0 0 3)[1]?.any fun w =>
      w.ok s (who s) && w.tiles.any (fun r => (s.tile? (who s) r.1).isNone) &&
        w.tiles.all fun r => r.2.all fun k => !s.kindWrong (who s) r.1 k) = true ∧
    ((copyCommands 2 16 24 5 3 1)[1]?.any fun w => w.ok s (who s) && w.tiles.any fun r => (s.tile? (who s) r.1).isNone) = true :=
  ⟨issues _ (by decide +kernel), handled _ (by decide +kernel), by decide +kernel, by decide +kernel⟩

/-- Groups 0 and 1 of a team braid on BRD 3; group 1 may wait in the knot, its matrix context is 11. -/
def braided (waiting : Bool) : State :=
  let s := tiled [0, 1, 2] fun g => { g with brd := 3 }
  let g1 : Group := { stocked (Group.fresh programLaunch 1 11 2 3) with brd := 3 }
  let e : ECmd := .mma 0 1 2 none none 0 0 [] [] 2
  let s := { s with ectxs := s.ectxs ++ [(11, ⟨.matrix 0 1, 1, 0, 0, [], [], []⟩)]
                    teams := s.teams.modify 0 fun T => { T with groups := T.groups ++
                      [(1, if waiting then g1.modSplit 0 fun e => { e with wait := .knot, st := .blocked } else g1)] } }
  if waiting then { s with cores := s.cores.modify 0 fun c => { c with knot := [⟨0, 1, 0, 3, false, 2, 0, false, e⟩] } } else s

theorem witness_braid_first : let s := braided false
    Issues s (who s) ∧ ((braidCommands 0 1 2 0)[0]?.any fun x => x.2.1.any fun w => commandB s w) = true ∧ (who s).brdOk = true ∧
      (s.core (who s).team.core).knot = [] ∧ 0 + 1 < (List.range 32).countP fun i => (who s).grp.brd.getLsbD i :=
  ⟨issues _ (by decide +kernel), by decide +kernel, by decide +kernel, rfl, by decide +kernel⟩
theorem witness_braid_last : let s := braided true
    Issues s (who s) ∧ ((braidCommands 0 1 2 0)[0]?.any fun x => x.2.1.any fun w => commandB s w && x.2.2.2 s (who s) == 2) = true ∧ (who s).brdOk = true ∧
      ∃ k H e, (s.core (who s).team.core).knot = [k] ∧ Agrees (who s) false 2 k ∧ ((List.range 32).countP fun i => (who s).grp.brd.getLsbD i) = 2 ∧
        k.grp < 32 ∧ (who s).gid < 32 ∧ (who s).team.groups.find? k.grp = some H ∧ H.splits.find? k.split = some e ∧ e.wait = .knot ∧
        e.st = .blocked ∧ H.mctx ≠ (who s).grp.mctx ∧ Roomy s H.mctx :=
  ⟨issues _ (by decide +kernel), by decide +kernel, by decide +kernel, _, _, _, rfl, by unfold Agrees; decide +kernel, by decide +kernel, by decide +kernel,
    by decide +kernel, rfl, rfl, rfl, rfl, by decide +kernel, roomy _ _ (by decide +kernel)⟩

/-! ### Futures -/

theorem witness_FutureTest : plain.ectxs.find? 1 = some ⟨.matrix 0 0, 1, 0, 0, [], [], []⟩ := rfl
theorem witness_BatchFuture : Issues full (who full) ∧ (∀ e : BitVec 2, ∃ x, full.ectxs.find?
    (if e = 0 then (who full).grp.mctx else if e = 1 then (who full).grp.cctx else (who full).grp.gctx) = some x) := by
  refine ⟨issues _ (by decide +kernel), fun e => ?_⟩
  split
  · exact ⟨_, rfl⟩
  · split <;> exact ⟨_, rfl⟩
theorem witness_FutureMoves : WordReady (who full) [2, 3] [] ∧ WordReady (who full) [] [2, 3] ∧ (Instr.qmov 1 2 0 0).wellFormed = true ∧
    (Instr.qmov 1 2 0 1).wellFormed = true ∧ (Instr.qmov 1 0 5 2).wellFormed = true :=
  ⟨wordReady _ _ _ (by decide +kernel), wordReady _ _ _ (by decide +kernel), by decide, by decide, by decide⟩

/-- A future of context 2 in q1: number n; the context's counter and failures. -/
def awaiting (ctx n counter : Nat) (failed : List FailRec) (pend : List EOp) : State :=
  let s := bench fun g => { stocked g with q := [(1, BitVec.ofNat 64 (ctx * 2 ^ 40 + n))] }
  { s with ectxs := s.ectxs.modify 2 fun x => { x with issued := n, counter := counter, failed := failed, pend := pend } }

theorem witness_WAITTL_none : let s := awaiting 0 5 0 [] []
    Issues s (who s) ∧ ((who s).grp.qreg 1).toNat / 2 ^ 40 = 0 ∧ (who s).grp.sBusy 4 = false :=
  ⟨issues _ (by decide +kernel), by decide +kernel, by decide +kernel⟩
theorem witness_WAITTL (c : Nat) (h : c = 4 ∨ c = 5) : let s := awaiting 2 6 c [] []
    Issues s (who s) ∧ ((who s).grp.qreg 1).toNat / 2 ^ 40 = 2 ∧ s.mayWait (who s).team 2 = true ∧
      s.futureDone 2 ((((who s).grp.qreg 1).toNat % 2 ^ 40 + 2 ^ 40 - 1) % 2 ^ 40) = (c == 5) ∧ ∃ x, s.ectxs.find? 2 = some x ∧ x.failed = [] := by
  rcases h with rfl | rfl <;>
    exact ⟨issues _ (by decide +kernel), by decide +kernel, by decide +kernel, by decide +kernel, _, rfl, rfl⟩
theorem witness_WAITTL_failed : let s := awaiting 2 6 6 [⟨3, .xlat, 0x1234, []⟩, ⟨5, .prot, 0, []⟩] []
    Issues s (who s) ∧ Handled s (who s) ∧ s.mayWait (who s).team 2 = true ∧ s.futureDone 2 6 = true ∧ (∀ n ∈ [3, 5], ((6 : Int) - n) % 2 ^ 40 < 2 ^ 39) :=
  ⟨issues _ (by decide +kernel), handled _ (by decide +kernel), by decide +kernel, by decide +kernel, by decide⟩
theorem witness_WAITTL_prot : let s := awaiting 77 6 6 [] []
    Issues s (who s) ∧ Handled s (who s) ∧ ((who s).grp.qreg 1).toNat / 2 ^ 40 ≠ 0 ∧ s.mayWait (who s).team 77 = false ∧
      77 ∉ [(who s).grp.mctx, (who s).grp.cctx, (who s).grp.gctx, s.fctxOf (who s).team] :=
  ⟨issues _ (by decide +kernel), handled _ (by decide +kernel), by decide +kernel, by decide +kernel, by decide +kernel⟩

/-- An operation of the bench's group. -/
def opOf (num : Nat) (cmd : ECmd) (running : Bool) : EOp :=
  ⟨num, cmd, 1, 0, 0, 0, 0, 0, running, 0, 0, 0, [], 0, [], false, [], none, none, none, none, none, false⟩

theorem witness_CANCEL : let s := awaiting 2 3 0 [] [opOf 1 (.cpy 0x80000 0x81000 16 [] false) true, opOf 2 (.cpy 0x80000 0x81000 16 [] false) false]
    Issues s (who s) ∧ 2 ∈ [(who s).grp.mctx, (who s).grp.cctx, (who s).grp.gctx, s.fctxOf (who s).team] ∧
      ∃ x, s.ectxs.find? 2 = some x ∧ (∀ o ∈ x.pend, o.pins = []) ∧ (x.pend.map EOp.num).Nodup :=
  ⟨issues _ (by decide +kernel), by decide +kernel, _, rfl, by decide +kernel, by decide +kernel⟩

/-! ### Steps -/

/-- A record at 0x80000: 64 positions, width 2, active on dies 0 and 1. -/
def recordBytes : List Byte :=
  natBytes 4 64 ++ natBytes 4 (2 * 16 + 8 * 256) ++ natBytes 4 2 ++ natBytes 4 4 ++ natBytes 8 7 ++ natBytes 8 0x90000 ++ natBytes 32 0 ++ natBytes 64 0

/-- The bench with that record, its address in s2, s3, and a step open or not. -/
def stepping (step : Option RopeStep) : State :=
  let s := (bench fun g => { stocked g with s := ((stocked g).s.insert 2 0x80000).insert 3 0, step := step }).store 0x80000 recordBytes
  { s with seqs := [(seqKey 1 0x80000, ⟨[0, 1], .empty, false, [], false, false, 0, 0, none, false⟩)] }

theorem witness_AtRecord : let s := stepping none
    Issues s (who s) ∧ WordReady (who s) [2, 3] [] ∧ AtRecord s (who s) 0x80000 0x80000 (parseRec (s.bytes 0x80000 128)) ⟨[0, 1], .empty, false, [], false, false, 0, 0, none, false⟩ ∧
      (who s).grp.step = none ∧ (who s).grp.sbad.contains 4 = false ∧ (who s).grp.sComing 4 = false ∧ (parseRec (s.bytes 0x80000 128)).w = 2 ∧
      s.translate (who s).team.space (0x80000 + 8) .write false = .hit 0x80008 :=
  ⟨issues _ (by decide +kernel), wordReady _ _ _ (by decide +kernel), ⟨⟨by decide +kernel, by decide +kernel, by decide +kernel, by decide +kernel, by decide +kernel, Eq.refl _, by decide +kernel⟩, by decide +kernel⟩, by decide +kernel,
    by decide +kernel, by decide +kernel, by decide +kernel, by decide +kernel⟩
theorem witness_RSTEP_end : let s := stepping (some ⟨0x80000, 0, 0, false⟩)
    Issues s (who s) ∧ (who s).grp.step = some ⟨0x80000, 0, 0, false⟩ ∧ (pair ((who s).grp.sreg 3) ((who s).grp.sreg 2)).toNat = 0x80000 ∧ Handled s (who s) :=
  ⟨issues _ (by decide +kernel), rfl, by decide +kernel, handled _ (by decide +kernel)⟩
theorem witness_RSTEP_illegal : Handled full (who full) ∧ (who full).grp.step = none ∧ (pair ((who full).grp.sreg 3) ((who full).grp.sreg 2)).toNat % 256 ≠ 0 :=
  ⟨handled _ (by decide +kernel), rfl, by decide +kernel⟩

end Sys2Proof.Tests
end

