-- ==== Sys2Proof/Tests/EventWitness.lean ====
section
/-! SUPPORT. States that meet the premises of the statements about what splits, lanes, stores, engines and teams do without an
instruction. -/
namespace Sys2Proof.Tests

-- One theorem at a time: each evaluation that waits for the kernel holds a thread of its own.
set_option Elab.async false

open Sys2Proof Sys2Proof.Machine

/-! ### Splits -/

/-- The stocked bench at an event about its split, which waits on w. -/
def parked (w : Wait) (mark : Option Nat) (f : Group → Group) : State :=
  { bench (fun g => f (stocked (g.modSplit 0 fun e => { e with st := .blocked, wait := w, mark := mark }))) with ev := .split 0 0 0 }

/-- The bench's team, group and split. -/
def teamIn (s : State) : Team := (who s).team
def groupIn (s : State) : Group := (who s).grp
def splitIn (s : State) : Split := (who s).spl

def atSplitB (s : State) : Bool :=
  s.ev == .split 0 0 0 && s.teams.find? 0 == some (teamIn s) && (teamIn s).here && (teamIn s).groups.find? 0 == some (groupIn s) &&
    (groupIn s).splits.find? 0 == some (splitIn s)

theorem atSplit (s : State) (h : atSplitB s = true) : AtSplit s 0 0 0 (teamIn s) (groupIn s) (splitIn s) := by
  unfold atSplitB at h
  simp only [Bool.and_eq_true, beq_iff_eq] at h
  exact ⟨h.1.1.1.1, h.1.1.1.2, h.1.1.2, h.1.2, h.2⟩

/-- A fault held for a marker. -/
def heldFault (op : Nat) : FaultRec := ⟨op, 0, 0x40010, .xlat, 0xF0, 0, 0x1234, 0, 2, true, 0, 0, []⟩

theorem witness_marker : let s := parked .none (some 3) id
    AtSplit s 0 0 0 (teamIn s) (groupIn s) (splitIn s) ∧ (splitIn s).st = .blocked ∧ (splitIn s).mark = some 3 ∧ (splitIn s).wait = .none ∧
      (∀ o ∈ (groupIn s).ops, 3 ≤ o.id) ∧ ∀ f ∈ (groupIn s).held, 3 ≤ f.op :=
  ⟨atSplit _ (by decide +kernel), rfl, rfl, rfl, by decide +kernel, by decide +kernel⟩
theorem witness_marker_fault : let s := parked .none (some 3) fun g => { g with held := [heldFault 2] }
    AtSplit s 0 0 0 (teamIn s) (groupIn s) (splitIn s) ∧ HandledAt s (teamIn s) (groupIn s) ∧ (groupIn s).held = [heldFault 2] ∧
      (∀ o ∈ (groupIn s).ops, 3 ≤ o.id) ∧ (heldFault 2).op < 3 ∧ (heldFault 2).detail = 0 :=
  ⟨atSplit _ (by decide +kernel), handledAt _ _ _ (by decide +kernel), rfl, by decide +kernel, by decide, rfl⟩
theorem witness_sleep : let s := parked (.sleep 99) (some 3) id
    AtSplit s 0 0 0 (teamIn s) (groupIn s) (splitIn s) ∧ (splitIn s).wait = .sleep 99 := ⟨atSplit _ (by decide +kernel), rfl⟩
theorem witness_yield : let s := parked (.yield [(0, 0)] 5 99) none id
    let still (since : Nat) : Prop := ∃ o ∈ [(0, 0)], ∃ H, s.group? o.1 o.2 = some H ∧ H.retired = false ∧ H.lastIssue ≤ since
    AtSplit s 0 0 0 (teamIn s) (groupIn s) (splitIn s) ∧ (splitIn s).wait = .yield [(0, 0)] 5 99 ∧ still 5 :=
  ⟨atSplit _ (by decide +kernel), rfl, (0, 0), by decide, _, rfl, rfl, by decide⟩
theorem witness_yield_over : (splitIn (parked (.yield [] 5 99) none id)).wait = .yield [] 5 99 ∧ atSplitB (parked (.yield [] 5 99) none id) = true ∧
    ¬ ∃ o ∈ ([] : List (Nat × Nat)), True := ⟨rfl, by decide +kernel, by simp⟩
theorem witness_monitor (x : Word) (h : x = 0 ∨ x = 1) : let s := parked (.monitor 0x50000 x (some 99) 0) none id
    AtSplit s 0 0 0 (teamIn s) (groupIn s) (splitIn s) ∧ s.translate (teamIn s).space 0x50000 .read (groupIn s).privileged = .hit 0x50000 ∧
      s.poisoned 0x50000 4 = false ∧ bytesWord (s.bytes 0x50000 4) = 0 ∧ ∀ w ∈ wordsOf 0x50000 4, w ∉ s.latent := by
  rcases h with rfl | rfl <;> exact ⟨atSplit _ (by decide +kernel), by decide +kernel, by decide +kernel, by decide +kernel, by decide +kernel⟩
/-- A SYSCALL whose record the driver has answered. -/
def answered : State := (parked (.syscall 0x60000) none id).store 0x60000 (List.replicate 48 0 ++ natBytes 4 11 ++ natBytes 4 12 ++ natBytes 4 1)
theorem witness_syscall : let s := answered
    AtSplit s 0 0 0 (teamIn s) (groupIn s) (splitIn s) ∧ (splitIn s).wait = .syscall 0x60000 ∧
      s.translate (teamIn s).space 0x60000 .read true = .hit 0x60000 ∧ s.nat (0x60000 + 56) 4 % 2 = 1 ∧ (groupIn s).sBusy 0 = false ∧
      (groupIn s).sBusy 1 = false :=
  ⟨atSplit _ (by decide +kernel), rfl, by decide +kernel, by decide +kernel, by decide +kernel, by decide +kernel⟩
theorem witness_member : let s := parked (.member 0x40000 0xFF 0xFFFFFFFF 10 7) none id
    AtSplit s 0 0 0 (teamIn s) (groupIn s) (splitIn s) ∧ (splitIn s).wait = .member 0x40000 0xFF 0xFFFFFFFF 10 7 ∧ 7 ≠ 0 ∧ (splitIn s).st = .blocked ∧
      (groupIn s).executing 0x40000 0xFF = false ∧ HandledAt s (teamIn s) (groupIn s) :=
  ⟨atSplit _ (by decide +kernel), rfl, by decide, rfl, by decide +kernel, handledAt _ _ _ (by decide +kernel)⟩

/-- A timed join: parent 0 with an arrived child 1 and a late one 2. -/
def timed : State :=
  let s := bench fun g =>
    let e : Split := { mask := 0xFFFF, act := 0xFFFF, pc := 0x40000, jpc := 0x10010, fmt := 3, parent := 0, st := .arrived, tof := false, back := .ready,
                       wait := .none, mark := none, timer := none, joint := true, prog := none, later := [], all := 0xFFFF }
    { stocked g with splits := [(0, { e with mask := 0xFFFFFFFF, act := 0xFFFFFFFF, st := .parent, timer := some 99 }), (1, e),
      (2, { e with mask := 0xFFFF0000, act := 0xFFFF0000, st := .ready })] }
  { s with ev := .split 0 0 0 }
theorem witness_join_timer : let s := timed
    let kids := (groupIn s).splits.filter (fun x => x.1 != 0 && x.2.parent == 0)
    let arrived := kids.filter (fun x => x.2.st == .arrived)
    AtSplit s 0 0 0 (teamIn s) (groupIn s) (splitIn s) ∧ (splitIn s).timer = some 99 ∧ (splitIn s).st = .parent ∧ (teamIn s).st = .running ∧
      Undisturbed (groupIn s) (arrived.map Prod.fst) (some 0) ∧ (∀ x ∈ kids, x.1 ≠ (splitIn s).parent) ∧
      (∀ x ∈ arrived, x.2.mark = none) ∧ arrived.foldl (fun m x => m ||| x.2.mask) 0#32 ≠ 0 :=
  ⟨atSplit _ (by decide +kernel), rfl, rfl, rfl, by unfold Undisturbed; decide +kernel, by decide +kernel, by decide +kernel, by decide +kernel⟩

/-! ### Lanes of kind-L instructions -/

/-- The stocked bench with one instruction outstanding, at an event about its lane 3. -/
def lane3 (o : LOp) (f : Group → Group) : State :=
  { bench (fun g => f { stocked g with ops := [o], nextOp := o.id + 1 }) with ev := .lane 0 0 o.id 3 }

/-- An outstanding instruction with destinations and an access of lane 3. -/
def opWith (kind : LKind) (dests : List Nat) (acc : LaneAcc) : LOp :=
  { anOp 5 kind with dests := dests, nv := dests.map fun _ => VReg.zero, accs := [acc] }

def laneOfB (s : State) (o : LOp) : Bool :=
  s.teams.find? 0 == some (teamIn s) && (teamIn s).here && (teamIn s).groups.find? 0 == some (groupIn s) &&
    (groupIn s).op? o.id == some o && (groupIn s).ops.all (fun x => x == o || (x.id != o.id && o.dests.all fun d => !x.dests.contains d)) &&
    decide (o.dests.Nodup ∧ o.nv.length = o.dests.length ∧ (o.handler = true → (groupIn s).privileged = true))

theorem laneOf (s : State) (o : LOp) (h : laneOfB s o = true) : LaneOf s 0 0 o.id 3 (teamIn s) (groupIn s) o := by
  unfold laneOfB at h
  simp only [Bool.and_eq_true, beq_iff_eq, decide_eq_true_eq, List.all_eq_true, Bool.or_eq_true, bne_iff_ne, Bool.not_eq_true',
    List.contains_eq_mem, decide_eq_false_iff_not] at h
  obtain ⟨⟨⟨⟨⟨b, c⟩, d⟩, e⟩, f⟩, g⟩ := h
  refine ⟨b, c, d, e, by decide, fun x hx hne => ?_, ⟨g.1, g.2.1⟩, g.2.2⟩
  rcases f x hx with h | h
  · exact absurd h hne
  · exact h

def atLaneB (s : State) (o : LOp) : Bool := s.ev == .lane 0 0 o.id 3 && laneOfB s o

theorem atLane (s : State) (o : LOp) (h : atLaneB s o = true) : AtLane s 0 0 o.id 3 (teamIn s) (groupIn s) o := by
  unfold atLaneB at h
  simp only [Bool.and_eq_true, beq_iff_eq] at h
  exact ⟨h.1, laneOf s o h.2⟩

/-- One lane's access, walked to a key. -/
def accAt (ea : Dword) (key : Option Nat) (data : List Byte) (cmp : Word) : LaneAcc :=
  ⟨3, 0, 5, max 4 data.length, ea, key, none, data, cmp, none, false, false, false⟩

/-- The event is about an access of lane 3, or one half of it. -/
def atAccessB (s : State) (o : LOp) (a : LaneAcc) : Bool :=
  s.ev == .lane 0 0 o.id a.tag && a.lane == 3 && laneOfB s o &&
    o.accs.find? (fun b => b.tag == a.tag) == some a

theorem atAccess (s : State) (o : LOp) (a : LaneAcc) (h : atAccessB s o a = true) : AtAccess s 0 0 o.id (teamIn s) (groupIn s) o a := by
  unfold atAccessB at h
  simp only [Bool.and_eq_true, beq_iff_eq] at h
  exact ⟨h.1.1.1, h.1.1.2 ▸ laneOf s o h.1.2, h.2⟩

def unitOp : LOp := { anOp 5 .unit with dests := [1], nv := [VReg.zero], res := [(3, [9])] }
theorem witness_unit_result : let s := lane3 unitOp id
    AtLane s 0 0 5 3 (teamIn s) (groupIn s) unitOp ∧ unitOp.res.find? (fun r => r.1 == 3) = some (3, [9]) :=
  ⟨atLane (lane3 unitOp id) unitOp (by decide +kernel), rfl⟩
def loadAcc : LaneAcc := { accAt 0x50000 (some 0x50000) [] 0 with size := 8 }
def loadOp : LOp := opWith (.load 8 false false) [1, 2] loadAcc
/-- The upper half of a 16-byte load: its words are the third and the fourth. -/
def halfAcc : LaneAcc := { loadAcc with part := 1, ea := 0x50008, key := some 0x50008 }
def halfOp : LOp := opWith (.load 16 false false) [1, 2, 3, 4] halfAcc
/-- The premises of a load's return at a key. -/
def loadsB (s : State) (o : LOp) (a : LaneAcc) (key : Nat) : Bool :=
  atAccessB s o a && [1, 2, 4, 8, 16].contains a.size && a.key == some key && !s.loadWaits 0 0 (groupIn s) o a key &&
    (List.range a.size).all fun j => !s.poisoned (key + j) 1
theorem witness_load_return : loadsB (lane3 loadOp id) loadOp loadAcc 0x50000 = true ∧
    loadsB { lane3 halfOp id with ev := .lane 0 0 5 (3 + 32) } halfOp halfAcc 0x50008 = true ∧ AtAccess (lane3 loadOp id) 0 0 5 (teamIn (lane3 loadOp id))
      (groupIn (lane3 loadOp id)) loadOp loadAcc :=
  ⟨by decide +kernel, by decide +kernel, atAccess (lane3 loadOp id) loadOp loadAcc (by decide +kernel)⟩
/-- A pad access of the team's own pad. -/
def padAcc (size : Nat) (data : List Byte) : LaneAcc := { accAt 64 none data 0 with pad := some 0, size := size }
def padLoadOp : LOp := opWith (.padLoad 8) [1, 2] (padAcc 8 [])
theorem witness_pad_load : let s := lane3 padLoadOp id
    AtAccess s 0 0 5 (teamIn s) (groupIn s) padLoadOp (padAcc 8 []) ∧ s.teams.find? 0 = some (teamIn s) ∧ (teamIn s).here = true ∧
      (groupIn s).padWaits 0 padLoadOp (padAcc 8 []) = false ∧ s.fenced 0 0 (groupIn s) (padAcc 8 []).ord true = false ∧
      (teamIn s).padPoisoned 64 8 = false :=
  ⟨atAccess (lane3 padLoadOp id) padLoadOp _ (by decide +kernel), rfl, by decide, by decide +kernel, by decide +kernel, by decide +kernel⟩
def padAtomicOp : LOp := opWith (.padAtomic 0) [1] (padAcc 4 [5, 0, 0, 0])
theorem witness_pad_atomic : let s := lane3 padAtomicOp id
    let a := padAcc 4 [5, 0, 0, 0]
    AtAccess s 0 0 5 (teamIn s) (groupIn s) padAtomicOp a ∧ (groupIn s).padWaits 0 padAtomicOp a = false ∧
      padAtomicOp.lowerFirst a = false ∧ s.fenced 0 0 (groupIn s) a.ord false = false ∧ (teamIn s).padPoisoned 64 4 = false :=
  ⟨atAccess (lane3 padAtomicOp id) padAtomicOp _ (by decide +kernel), by decide +kernel, by decide +kernel, by decide +kernel, by decide +kernel⟩
def atomicAcc : LaneAcc := accAt 0x50000 (some 0x50000) [5, 0, 0, 0] 0
def atomicOp : LOp := opWith (.atomic 0 true) [1] atomicAcc
theorem witness_atomic_result : let s := lane3 atomicOp id
    AtAccess s 0 0 5 (teamIn s) (groupIn s) atomicOp atomicAcc ∧ s.atomicWaits 0 0 (groupIn s) atomicOp atomicAcc 0x50000 = false ∧
      s.poisoned 0x50000 4 = false ∧ s.pkg.hostLate = [] :=
  ⟨atAccess (lane3 atomicOp id) atomicOp _ (by decide +kernel), by decide +kernel, by decide +kernel, rfl⟩
theorem witness_quotient : let o : LOp := { anOp 5 (.sdiv 4 9) with sdests := [4] }
    let s : State := { lane3 o id with ev := .op 0 0 5 }
    s.ev = .op 0 0 5 ∧ s.group? 0 0 = some (groupIn s) ∧ (groupIn s).op? 5 = some o ∧ (∀ x ∈ (groupIn s).ops, x ≠ o → x.id ≠ 5) ∧
      ∀ x ∈ (groupIn s).ops, x.id < 5 → 4 ∉ x.sdests :=
  ⟨rfl, rfl, rfl, by decide +kernel, by decide +kernel⟩

/-- A store in the write buffer, to memory of the device or of the host. -/
def buf (at_ : Nat) (red : Option Nat) : Buffered :=
  ⟨5, 3, 0, 5, 0xFFFFFFFF, false, 0, 0x40000, 0x50000, 0, [(at_, 1), (at_ + 1, 2), (at_ + 2, 0), (at_ + 3, 0)], red, none⟩
def buffering (at_ : Nat) (red : Option Nat) : State :=
  { bench (fun g => { stocked g with wbuf := [buf at_ red], nextOp := 6 }) with ev := .lane 0 0 5 3 }
theorem witness_store_performed : ∀ a ∈ [0x50000, hostKey], ∀ red ∈ [none, some 0], let s := buffering a red
    s.ev = .lane 0 0 5 3 ∧ (teamIn s).here = true ∧ (groupIn s).wbuf.find? (fun b => b.id == 5 && b.tag == 3) = some (buf a red) ∧
      s.mayPerform 0 0 (groupIn s) (buf a red) = true ∧ (buf a red).bytes.head?.map Prod.fst = some a ∧ s.poisoned a 4 = false ∧
      (groupIn s).ops = [] ∧ s.pkg.hostLate = [] := by
  decide +kernel
theorem witness_pad_store : let a := padAcc 4 [5, 6, 0, 0]
    let o := opWith .padStore [] a
    let s := lane3 o id
    (teamIn s).here = true ∧ (groupIn s).op? 5 = some o ∧ o.accs.find? (fun b => b.tag == a.tag) = some a ∧ (∀ x ∈ (groupIn s).ops, x ≠ o → x.id ≠ 5) ∧
      o.kind.isView = false ∧ s.ev = .lane 0 0 5 a.tag ∧ (groupIn s).padWaits 0 o a = false ∧ (groupIn s).padHigher o a = false ∧
      s.fenced 0 0 (groupIn s) a.ord false = false :=
  ⟨by decide, rfl, rfl, by decide +kernel, rfl, rfl, by decide +kernel, by decide +kernel, by decide +kernel⟩
/-- The walk of a lane of a store, a load, a reduction. -/
def walking (k : LKind) : State :=
  { lane3 (opWith k (if k.isLoad then [1] else []) (accAt 0x50000 none [5, 0, 0, 0] 0)) id with ev := .walk (.lane 0 0 5 3) }
theorem witness_walk : ∀ k ∈ [LKind.load 4 false false, .store none, .atomic 0 false, .atomic 0 true], let s := walking k
    s.ev = .walk (.lane 0 0 5 3) ∧ (groupIn s).wbuf = [] ∧ (groupIn s).replayBefore (accAt 0x50000 none [5, 0, 0, 0] 0) = false ∧
      s.translate (teamIn s).space 0x50000 (if k.isLoad then .read else .write) false = .hit 0x50000 ∧
      ((groupIn s).op? 5).any (fun o => !s.heldBack 0 0 (groupIn s) o && o.shadow.isEmpty) = true := by
  decide +kernel

/-! ### The package scheduler's answers -/

/-- An RVIEW of the record at 0x80000 outstanding, its request at the scheduler. -/
def asking (kind : LKind) (n : Nat) : State :=
  let s := stepping none
  { s with ev := .op 0 0 5, teams := s.teams.modify 0 fun T => { T with groups := T.groups.modify 0 fun g => { g with
      ops := [{ anOp 5 kind with sdests := (List.range n).map (4 + ·), accs := [{ accAt 0x80000 none [] 0xFFFFFFFF with lane := 0 }] }], nextOp := 6 } } }

/-- The request's access, its instruction. -/
def viewAcc : LaneAcc := { accAt 0x80000 none [] 0xFFFFFFFF with lane := 0 }
def viewOp : LOp := { anOp 5 (.view false 0x80000 4) with sdests := (List.range 6).map (4 + ·), accs := [viewAcc] }
theorem witness_Asked : let s := asking (.view false 0x80000 4) 6
    Asked s 0 0 5 (teamIn s) (groupIn s) viewOp viewAcc ∧
      RecordAt s (teamIn s).space 0x80000 0x80000 (parseRec (s.bytes 0x80000 128)) ⟨[0, 1], .empty, false, [], false, false, 0, 0, none, false⟩ ∧
      (parseRec (s.bytes 0x80000 128)).w = 2 :=
  ⟨⟨rfl, rfl, by decide, rfl, rfl, rfl, rfl, rfl, by decide +kernel, by decide +kernel⟩,
    ⟨by decide +kernel, by decide +kernel, by decide +kernel, by decide +kernel, by decide +kernel, Eq.refl _, by decide +kernel⟩, by decide +kernel⟩

theorem witness_answer : ∀ x ∈ [(LKind.view false 0x80000 4, 6), (.kvalloc 0x80000 1 4, 1)], let s := asking x.1 x.2
    s.ev = .op 0 0 5 ∧ (teamIn s).here = true ∧ ((groupIn s).op? 5).isSome = true ∧ x.1.isView = true ∧
      (let ag : Agent := ⟨(teamIn s).space, (teamIn s).core, false, false⟩
       match runWork s ag (.lane 0 0 5 0) (answerW ag (groupIn s) (teamIn s).core x.1)
        with | .done _ w => w.group? 0 0 == some (groupIn s) | _ => false) = true := by
  decide +kernel

/-! ### Engine operations -/

/-- The bench at an event about operation 1 of an engine context, changed. -/
def engineAt (ctx : Nat) (o : EOp) (f : State → State) : State :=
  let s := tiled [0, 1, 2] id
  f { s with ev := .engine ctx 1, ectxs := s.ectxs.modify ctx fun x => { x with issued := 1, pend := [o] } }

def ctxIn (s : State) (ctx : Nat) : ECtx := (s.ectxs.find? ctx).getD ⟨.fabric, 0, 0, 0, [], [], []⟩

theorem atEngine (s : State) (ctx : Nat) (o : EOp) (h : (s.ev == .engine ctx 1 && s.ectxs.find? ctx == some (ctxIn s ctx) &&
    (ctxIn s ctx).pend.find? (fun o => o.num == 1) == some o) = true) : AtEngine s ctx 1 (ctxIn s ctx) o := by
  simp only [Bool.and_eq_true, beq_iff_eq] at h
  exact ⟨h.1.1, h.1.2, h.2⟩

def mma : ECmd := .mma 0 1 2 none none 0 0 [] [] 1
def copy16 : ECmd := .cpy 0x80000 0x90000 16 [] false

theorem witness_op_start : let o := opOf 1 mma false
    let s := engineAt 1 o id
    s.ectxs.find? 1 = some (ctxIn s 1) ∧ s.opReady o = true ∧ s.engineFree 1 (ctxIn s 1) o = true ∧ o.cmd.isFabric = false ∧ (ECmd.startWork 1 o).isNone = true ∧
      o.cmd.record = none :=
  ⟨rfl, by decide +kernel, by decide +kernel, by decide, by decide, rfl⟩
/-- A matrix operation after its eight k-steps; one that has failed. -/
def mmaDone : EOp := { opOf 1 mma true with prog := 8 }
def mmaFailed : EOp := { opOf 1 mma true with failure := some (.ecc, 0) }
theorem witness_mma_complete : AtEngine (engineAt 1 mmaDone id) 1 1 (ctxIn (engineAt 1 mmaDone id) 1) mmaDone ∧
    (ctxIn (engineAt 1 mmaDone id) 1).done = [] ∧ 1 = (ctxIn (engineAt 1 mmaDone id) 1).counter + 1 ∧ (engineAt 1 mmaDone id).opHere mmaDone = true :=
  ⟨atEngine _ _ _ (by decide +kernel), rfl, rfl, by decide +kernel⟩
theorem witness_mma_failed : AtEngine (engineAt 1 mmaFailed id) 1 1 (ctxIn (engineAt 1 mmaFailed id) 1) mmaFailed ∧
    (ctxIn (engineAt 1 mmaFailed id) 1).done = [] ∧ (engineAt 1 mmaFailed id).opHere mmaFailed = true ∧ mmaFailed.cmd.isFabric = false ∧
    0 ∈ mmaFailed.cmd.names ∧ ((engineAt 1 mmaFailed id).slot? 0 0).isSome = true :=
  ⟨atEngine _ _ _ (by decide +kernel), rfl, by decide +kernel, by decide, by decide, by decide +kernel⟩
def copyOp : EOp := opOf 1 copy16 true
theorem witness_copy_complete : let s := engineAt 2 copyOp id
    AtEngine s 2 1 (ctxIn s 2) copyOp ∧ s.opHere copyOp = true ∧ s.translate 1 0x80000 .read false = .hit 0x80000 ∧
      s.translate 1 0x90000 .write false = .hit 0x90000 :=
  ⟨atEngine _ _ _ (by decide +kernel), by decide +kernel, by decide +kernel, by decide +kernel⟩
/-- A core at a k-step; the accumulator's row may be poisoned. -/
def kstepping (bad : List Nat) : State :=
  let s := engineAt 1 (opOf 1 mma true) id
  { s with ev := .core 0, cores := s.cores.modify 0 fun c => { c with tiles := c.tiles.modify 1 fun x => { x with bad := bad } } }
theorem witness_kstep : ∀ bad ∈ [[], [0]], let s := kstepping bad
    s.ev = .core 0 ∧ (match s.turn 0 with
      | some (slot, ctx, o) => ctx == 1 && (s.modCore 0 fun k => { k with served := some slot }).kstepBad o o.prog == !bad.isEmpty
      | none => false) = true := by decide +kernel

/-- A slot that was freed. -/
def releasing : State :=
  let s := tiled [0] id
  { s with ev := .slot 0 0, teams := s.teams.modify 0 fun T => { T with slots := [] }
           cores := s.cores.modify 0 fun c => { c with tiles := [(0, { slotOf 0 with alloc := false, busy := true, gen := 1 })] } }
theorem witness_slot_release : let s := releasing
    s.ev = .slot 0 0 ∧ s.slot? 0 0 = some { slotOf 0 with alloc := false, busy := true, gen := 1 } ∧ (∀ y ∈ s.eops, y.2.core = 0 → s.opHere y.2 = true → 0 ∉ y.2.cmd.names) ∧
      (∀ y ∈ s.teams, y.2.core = 0 → y.2.here = true → 0 ∉ y.2.slots) ∧ s.tileReader 0 0 s.nextOrd = false ∧
      ∀ m ∈ (s.core 0).knot, 0 ∉ m.cmd.names :=
  ⟨rfl, by decide +kernel, by decide +kernel, by decide +kernel, by decide +kernel, by decide +kernel⟩
/-- A block of tier 0 in the release queue. -/
def blockGone : State := { spaceAs full (fun x => { x with release := [5] }) with ev := .block 1 0 5 }
theorem witness_block_release : let s := blockGone
    s.ev = .block 1 0 5 ∧ s.frameKey 0 (5 * 65536) = some (5 * 65536) ∧ ∃ x, s.ctxs.find? 1 = some x ∧ 0 * 2 ^ 32 + 5 ∈ x.release ∧
      SMap.getD x.pins (0 * 2 ^ 32 + 5) 0 = 0 :=
  ⟨rfl, by decide +kernel, _, rfl, by decide +kernel, by decide +kernel⟩

/-! ### Teams -/

/-- The bench's team changed, at an event about it. -/
def teamEvent (f : Team → Team) : State := { full with ev := .team 0, teams := full.teams.modify 0 f }

theorem witness_team_halt (d : Bool) : let s := teamEvent fun T => { T with st := .halting 0, debug := d }
    s.ev = .team 0 ∧ s.teams.find? 0 = some (teamIn s) ∧ (teamIn s).st = .halting 0 ∧ (∀ G ∈ (teamIn s).groups, G.2.skidLeft = 0) ∧ (s.core 0).knot = [] := by
  cases d <;> exact ⟨rfl, rfl, rfl, by decide +kernel, rfl⟩
/-- A halted team at the head of its core's queue. -/
def queued : State :=
  let s := teamEvent fun T => { T with st := .halted, faulting := some 0 }
  { s with cores := s.cores.modify 0 fun c => { c with haltQ := [0] } }
theorem witness_handler_start : let s := queued
    s.ev = .team 0 ∧ (teamIn s).st = .halted ∧ (teamIn s).debug = false ∧ (teamIn s).cause = none ∧ (teamIn s).handling = none ∧ (teamIn s).faulting = some 0 ∧
      (teamIn s).groups.find? 0 = some (groupIn s) ∧ (s.ctxs.find? (teamIn s).space).isSome = true ∧ (s.core (teamIn s).core).handler = none ∧
      (s.core (teamIn s).core).haltQ.head? = some 0 :=
  ⟨rfl, rfl, rfl, rfl, rfl, rfl, rfl, by decide +kernel, rfl, rfl⟩
/-- The first of a launch's two teams, whose group has retired. -/
def retiring (cause : Option Nat) : State :=
  let s := teamEvent fun T => { T with cause := cause, st := if cause.isSome then .halted else .running, groups := List.map (fun g => (g.1, { Prod.snd g with retired := true, splits := [], alive := 0, v := [] })) T.groups }
  { s with launches := s.launches.modify 4 fun L => { L with grid := 2 } }
theorem witness_retire (c : Option Nat) (h : c = none ∨ c = some 15) : let s := retiring c
    ∃ T L x, s.ev = .team 0 ∧ s.teams.find? 0 = some T ∧ s.launches.find? T.launch = some L ∧ T.here = true ∧ T.over = true ∧ T.miss = none ∧ T.slots = [] ∧
      (∀ G ∈ T.groups, G.2.step = none) ∧ (s.link T.sector).mayTell = true ∧ L.retired.length + 1 ≠ L.grid * (L.width * L.height) ∧ s.ectxs.find? T.launch = some x ∧ x.done = [] ∧
      x.counter = T.cix * (L.width * L.height) + T.ty * L.width + T.tx ∧ (L.area.toNat + 256 * 0) % 256 = 0 ∧ windowOf (L.area.toNat + 256 * 0) < 2 ∧
      s.translate L.space (L.area.toNat + 256 * 0) .write false = .hit 0x60000 := by
  rcases h with rfl | rfl <;>
    exact ⟨_, _, _, rfl, rfl, rfl, by decide, by decide, rfl, rfl, by decide, by decide +kernel, by decide, rfl, rfl, rfl, by decide, by decide, by decide +kernel⟩

/-- A save pool of a megabyte for function 0. -/
def pooled (s : State) : State := { s with pkg := { s.pkg with savePools := [(0, (0x100000, 0x100000))] } }
theorem saveRoom (s : State) (t : Nat) (T : Team) (h : (s.saveRoom (s.vfOf T.space) (s.recordSize t T)).isSome = true) :
    ∃ off, SaveRoom s t T off := Option.isSome_iff_exists.1 h
theorem quiet (s : State) (t : Nat) (T : Team)
    (h : (T.groups.all (fun G => G.2.wbuf.isEmpty) && (s.core T.core).knot.all (fun k => k.team != t) && !T.st.isHalting &&
      s.eops.all fun x => x.2.team != t || !x.2.running || !x.2.cmd.isRowwise) = true) : Quiet s t T := by
  simp only [Bool.and_eq_true, Bool.not_eq_true', List.all_eq_true, List.isEmpty_iff, bne_iff_ne] at h
  refine ⟨h.1.1.1, h.1.1.2, h.1.2, fun x hx ht hr => ?_⟩
  have := h.2 x hx
  simpa [ht, hr] using this

/-- A contract's launch waits for sector 0. -/
def preempted : State :=
  let s := pooled (teamEvent id)
  { s with launches := s.launches ++ [(7, { programLaunch with realtime := true, placed := 0, contract := 3, width := 4, height := 6, clusters := [], tiles := 128 })]
           contracts := [⟨1, 3, 63, [0], 1000, 500, 900, 0x70000, 0, false, [], 0, none, false⟩] }
theorem witness_preemption : let s := preempted
    s.ev = .team 0 ∧ s.teams.find? 0 = some (teamIn s) ∧ (teamIn s).here = true ∧ (teamIn s).cause = none ∧
      (teamIn s).over = false ∧ (s.launchOf (teamIn s)).any Launch.realtime = false ∧ s.contractWaits ((teamIn s).core / 24) = true ∧
      Quiet s 0 (teamIn s) ∧ ∃ off, SaveRoom s 0 (teamIn s) off :=
  ⟨rfl, rfl, by decide, rfl, by decide +kernel, by decide +kernel, by decide +kernel, quiet _ _ _ (by decide +kernel), saveRoom _ _ _ (by decide +kernel)⟩
/-- A team whose one split waits for a register. -/
def starved (pool : Bool) : State :=
  let s := { bench (fun g => stocked (g.modSplit 0 fun e => { e with st := .blocked, wait := .regs 1 })) with ev := .core 0 }
  if pool then pooled s else s
theorem witness_register_evict : ∀ b, let s := starved b
    s.ev = .core 0 ∧ s.starving 0 = some 0 ∧ s.allStuck 0 = true ∧
      (s.saveRoom (s.vfOf (teamIn s).space) (s.recordSize 0 (teamIn s))).isSome = b := by decide +kernel
theorem witness_register_evict_quiet : Quiet (starved true) 0 (teamIn (starved true)) := quiet _ _ _ (by decide +kernel)
/-- A team in WAITM for long, and a saved team of its address space that could take its place. -/
def parkedTeam : State :=
  let s := pooled (bench fun g => stocked (g.modSplit 0 fun e => { e with st := .blocked, wait := .monitor 0x50000 0 none 0 }))
  let B : Team := { programTeam with st := .out false, saveAt := 0x80000, saveSize := 4096, admitted := 0 }
  { s with now := 18 * 30000, ev := .teams 0 1, teams := s.teams ++ [(1, B)] }
theorem witness_waitm_evict : let s := parkedTeam
    s.ev = .teams 0 1 ∧ ∃ B, s.teams.find? 1 = some B ∧ (teamIn s).space = B.space ∧ (teamIn s).core / 24 = B.core / 24 ∧ ((teamIn s).candidate s.now).isSome = true ∧
      ((s.saveTeam 0).all fun w => w.fitsBack B (teamIn s).core) = true ∧ Quiet s 0 (teamIn s) ∧ (∃ off, SaveRoom s 0 (teamIn s) off) ∧
      ∀ x ∈ s.teams, x.1 ≠ 0 → x.2.core = (teamIn s).core → x.2.candidate s.now = none :=
  ⟨rfl, _, rfl, rfl, rfl, by decide +kernel, by decide +kernel, quiet _ _ _ (by decide +kernel), saveRoom _ _ _ (by decide +kernel), by decide +kernel⟩
/-- A saved team and an empty core. -/
def outside (h : Bool) : State :=
  { full with ev := .teamCore 0 0, teams := [(0, { programTeam with st := .out h, saveAt := 0, saveSize := 4096 })] }
theorem witness_readmit : ∀ h, let s := outside h
    s.ev = .teamCore 0 0 ∧ ((s.teams.find? 0).any fun T => T.st == .out h && s.mayReturn T 0 && (s.launches.find? T.launch).isSome &&
      s.teams.all (fun x => s.levelOf x.2 ≤ s.levelOf T) && T.groups.all fun G => G.2.pending.isEmpty) = true := by decide +kernel

end Sys2Proof.Tests
end

