-- ==== Sys2Proof/Tests/FabricWitness.lean ====
section
/-! SUPPORT. States that meet the premises of the statements about the fabric. -/
namespace Sys2Proof.Tests

-- One theorem at a time: each evaluation that waits for the kernel holds a thread of its own.
set_option Elab.async false

open Sys2Proof Sys2Proof.Machine

/-- The stocked bench as peer 9: ports 2 and 5 are UP; domain 7 exports 64 KiB of address space 1 from virtual address 2^29, whose page is
frame 8 in tier 3; group 3 has 4 members; fabric context 30. -/
def wired : State :=
  let s := (full.store 131080 (natBytes 8 (1 + 0xC0000))).store 0xC0000 (natBytes 8 (15 + 8 * 65536 + 3 * 2 ^ 52))
  { s with
    ectxs := s.ectxs ++ [(30, ⟨.fabric, 1, 0, 0, [], [], []⟩)]
    fab := { s.fab with
      ports := (List.range 18).map fun i => (i, { Port.reset with st := if i = 2 ∨ i = 5 then .up else .down })
      ctxs := [(30, ⟨7, 0x91000, 0x92000, 50⟩)] }
    pkg := { s.pkg with peer := 9, exports := [(0, ⟨true, 7, 1, false, false, 2 ^ 29, 65536⟩)], mcast := [(3, ⟨4, 7⟩)] } }

/-! ### Links -/

/-- A flit's data: a trimmed header of type 2, or the first 64 bytes of a packet of 40 words. -/
def flitData (long : Bool) : List Byte :=
  [if long then 2 else 18, if long then 40 else 0] ++ natBytes 2 9 ++ natBytes 2 11 ++ List.replicate 58 0
/-- The trailer of sequence number 0 for it. -/
def trailerOf (data : List Byte) : Dword := BitVec.ofNat 64 (crc32 (data ++ [0, 0, 0, 0]) * 2 ^ 32)
def flitIn (data : List Byte) (trailer : Dword) : State := { wired with ev := .flit 2 data trailer }
theorem witness_flit : (flitIn (flitData false) (trailerOf (flitData false))).ev = .flit 2 (flitData false) (trailerOf (flitData false)) ∧
    (wired.port 2).st = .up ∧ (wired.port 3).st ≠ .up ∧ flitOk (flitData false) (trailerOf (flitData false)) = true ∧
    flitOk (flitData true) (trailerOf (flitData true)) = true ∧ (trailerOf (flitData false)).toNat % 4096 = (wired.port 2).rxSeq ∧
    (trailerOf (flitData true)).toNat % 4096 = (wired.port 2).rxSeq ∧ flitOk (flitData false) (trailerOf (flitData true)) = false ∧
    packetLength ((wired.port 2).rxData ++ flitData false) ≤ 64 ∧ 64 < packetLength ((wired.port 2).rxData ++ flitData true) ∧
    packetRow (parsePacket ((flitData false).take (packetLength (flitData false)))) = some .trimmedHeader := by decide +kernel

/-- Port 3 in a state. -/
def portIn (st : LinkSt) (f : Port → Port) : State := wired.setPort 3 (f { wired.port 3 with st := st })
theorem witness_records : (∀ a < 4, ((portIn (.training a false) id).port 3).st = .training a false) ∧ ((portIn (.training 3 true) id).port 3).st = .training 3 true ∧
    (⟨3, 0xFF, 0, 0⟩ : LinkRecord).width ≠ 0 ∧ (⟨3, 0xFF, 0, 0⟩ : LinkRecord).speed ≠ 3 ∧ (⟨2, 0xFF, 0, 0⟩ : LinkRecord).width ≠ (⟨3, 0xFF, 0, 0⟩ : LinkRecord).width := by
  decide +kernel
theorem witness_ports : (∀ a < 3, ((portIn (.hold a) id).port 3).st = .hold a) ∧ ((portIn .down id).port 3).st = .down ∧ ((portIn .failed id).port 3).st = .failed := by
  decide +kernel
def loneUp : State := { portIn .up (fun p => { p with replay := [⟨0, [], 16⟩, ⟨1, [], 3⟩], txSeq := 2, acked := 0 }) with ev := .index 3 }
theorem witness_port_up : (loneUp.port 3).st = .up ∧ loneUp.fab.runs = [] ∧ (∃ f ∈ (loneUp.port 3).replay, (loneUp.port 3).open_ f ∧ 16 ≤ f.replays) ∧
    (∀ f ∈ (wired.port 3).replay, (wired.port 3).open_ f → f.replays < 16) ∧ (loneUp.fab.ports.find? 3).isSome = true ∧
    ∀ f ∈ (loneUp.port 3).replay, (loneUp.port 3).open_ f := by
  unfold Port.open_
  decide +kernel

/-- Flits of port 3 that are not acknowledged, and have not been replayed often. -/
theorem witness_replay : let p : Port := { wired.port 3 with st := .up, replay := [⟨0, [1], 15⟩, ⟨1, [2], 3⟩], txSeq := 2, acked := 1 }
    (∀ f ∈ p.replay, p.open_ f → f.replays < 16) ∧ (∃ f ∈ p.replay, p.open_ f) ∧ ∃ f ∈ p.replay, ¬ p.open_ f := by
  unfold Port.open_
  decide +kernel

/-- A packet that this device has sent: its type, target, words and the plane it went out on. -/
def sentPacket (type : BitVec 4) (mc : Bool) (mask : Dword) (plane : BitVec 5) : Packet :=
  { Packet.blank with type := type, target := if mc then 3 else 11, mc := mc, source := 9, seq := 5, plane := plane, domain := 7, line := 0x300, mask := mask }
/-- It is not acknowledged, for an origin. -/
def unackedOf (p : Packet) (origin : Origin) : Unacked := ⟨p, origin, 30, [], 900000, none, 0, [], none, none, false⟩
/-- A state with that one unacknowledged packet. -/
def awaitingAnswer (s : State) (u : Unacked) : State :=
  { s with fab := { s.fab with runs := [(runKey u.pkt.mc u.pkt.target.toNat, ⟨6, [u], []⟩)] } }
def writeSent : Unacked := unackedOf (sentPacket 2 false 1 2) (.engine 30 1 0 0 0)
theorem witness_port_lost : let s := { awaitingAnswer wired writeSent with ev := .index 2 }
    s.portsListed ∧ (s.port 2).st = .up ∧ s.fab.runs = [(11, ⟨6, [writeSent], []⟩)] ∧ writeSent.pkt.plane.toNat = 2 ∧ writeSent.ended = none ∧ (s.port 5).st = .up ∧
      (∀ k < 18, (s.port k).st = .up → k = 2 ∨ k = 5) ∧ 5 ∉ writeSent.tried := by
  refine ⟨⟨by decide +kernel, by decide +kernel⟩, by decide +kernel⟩
/-- No port is UP beyond those listed. -/
theorem wired_beyond (k : Nat) (h : 18 ≤ k) : (wired.port k).st ≠ .up := by
  have : SMap.find? wired.fab.ports k = none := by
    rw [show wired.fab.ports = (List.range 18).map fun i => (i, { Port.reset with st := if i = 2 ∨ i = 5 then .up else .down }) from rfl]
    have (l : List Nat) (f : Nat → Port) (hl : ∀ i ∈ l, i ≠ k) : SMap.find? (l.map fun i => (i, f i)) k = none := by
      induction l with
      | nil => rfl
      | cons i l ih => simp_all [SMap.find?]
    exact this _ _ fun i hi => by have := List.mem_range.1 hi; omega
  unfold State.port SMap.getD
  rw [this]
  decide
theorem witness_reserved_packet : packetReserved { Packet.blank with type := 14 } = true ∧ packetReserved { Packet.blank with reserved := true } = true := by decide

/-! ### Requests -/

/-- A request of peer 11 to domain 7, at line 0x300. -/
def request (type : BitVec 4) (mc : Bool) (mask : Dword) (payload : List Word) (index : List Byte) : Packet :=
  { Packet.blank with type := type, target := if mc then 3 else 9, mc := mc, source := 11, seq := 5, plane := 2, domain := 7, lowack := 5, line := 0x300, mask := mask
                      payload := payload, index := index }
def arriving (x : Packet) : State := { wired with ev := .portPacket 2 x }
def atPacketB (s : State) (i : Nat) (x : Packet) : Bool :=
  s.ev == .portPacket i x && (s.port i).st == .up && !packetReserved x && (x.mc || x.target.toNat == s.pkg.peer)
theorem atPacket (s : State) (i : Nat) (x : Packet) (type : Nat) (mc : Bool) (h : atPacketB s i x = true) (ht : x.type.toNat = type) (hm : x.mc = mc) :
    AtPacket s i x type mc := by
  unfold atPacketB at h
  simp only [Bool.and_eq_true, beq_iff_eq, Bool.not_eq_true', Bool.or_eq_true] at h
  exact ⟨h.1.1.1, h.1.1.2, h.1.2, ht, hm, h.2⟩
theorem fresh (s : State) (x : Packet) (h : (!x.trimmed && !(s.windowFor x).done x.seq.toNat && (s.windowFor x).held == [] && (s.windowFor x).waits == [] && !x.pv) = true) :
    FreshRequest s x := by
  simp only [Bool.and_eq_true, beq_iff_eq, Bool.not_eq_true'] at h
  exact ⟨h.1.1.1.1, h.1.1.1.2, ⟨h.1.1.2, h.1.2⟩, .inl h.2⟩
def exported : Export := ⟨true, 7, 1, false, false, 2 ^ 29, 65536⟩
theorem ev_translate (s : State) (e : EvArg) (sp va : Nat) (acc : Access) : ({ s with ev := e } : State).translate sp va acc false = s.translate sp va acc false := rfl
theorem ev_leafAt (s : State) (e : EvArg) (sp va : Nat) : ({ s with ev := e } : State).leafAt sp va = s.leafAt sp va := rfl
theorem exports (x : Packet) (writes : Bool) (hd : x.domain = 7) (hl : x.line = 0x300) : Exported (arriving x) x writes exported 0x80300 where
  entry := ⟨0, List.mem_singleton.2 rfl, fun y hy _ _ => List.mem_singleton.1 hy⟩
  valid := rfl
  domain := by simp [hd, exported]
  live := rfl
  inside := by simp [hl, exported]
  writable := fun _ => rfl
  hit := by
    have t (w : Bool) : wired.translate exported.space (exported.base + (0x300 : Dword).toNat) (if w then .write else .read) false = .hit 0x80300 := by
      cases w <;> decide +kernel
    rw [hl]
    exact (ev_translate wired _ _ _ _).trans (t writes)
  tier := by
    rw [hl]
    exact ⟨15 + 8 * 65536 + 3 * 2 ^ 52, (ev_leafAt wired _ _ _).trans (by decide +kernel), by decide⟩

def readAsk : Packet := request 0 false 5 [] []
def writeAsk : Packet := request 2 false 5 [1, 2] []
def trailedAsk : Packet := { request 2 false 1 [7] (1 :: List.replicate 31 0) with trailer := true }
def atomicAsk (type : BitVec 4) (mc : Bool) : Packet := request type mc 256 [3, 0] (List.replicate 32 0)
theorem witness_requests : AtPacket (arriving readAsk) 2 readAsk 0 false ∧ FreshRequest (arriving readAsk) readAsk ∧ Exported (arriving readAsk) readAsk false exported 0x80300 ∧
    (∀ w ∈ maskWords readAsk.mask, (arriving readAsk).poisoned (0x80300 + 4 * w) 4 = false) ∧
    AtPacket (arriving writeAsk) 2 writeAsk 2 false ∧ FreshRequest (arriving writeAsk) writeAsk ∧ Exported (arriving writeAsk) writeAsk true exported 0x80300 ∧
    writeAsk.payload.length = (maskWords writeAsk.mask).length ∧
    AtPacket (arriving trailedAsk) 2 trailedAsk 2 false ∧ FreshRequest (arriving trailedAsk) trailedAsk ∧ trailedAsk.payload.length = (maskWords trailedAsk.mask).length ∧
    AtPacket (arriving (atomicAsk 4 false)) 2 (atomicAsk 4 false) 4 false ∧ FreshRequest (arriving (atomicAsk 4 false)) (atomicAsk 4 false) ∧
    Exported (arriving (atomicAsk 4 false)) (atomicAsk 4 false) true exported 0x80300 ∧ fld (atomicAsk 4 false).mask.toNat 8 6 = 1 ∧
    (arriving (atomicAsk 4 false)).poisoned 0x80300 4 = false ∧
    AtPacket (arriving (atomicAsk 6 false)) 2 (atomicAsk 6 false) 6 false ∧ FreshRequest (arriving (atomicAsk 6 false)) (atomicAsk 6 false) ∧
    AtPacket (arriving (atomicAsk 10 true)) 2 (atomicAsk 10 true) 10 true ∧ FreshRequest (arriving (atomicAsk 10 true)) (atomicAsk 10 true) ∧
    AtPacket (arriving (request 9 true 5 [1, 2] [])) 2 (request 9 true 5 [1, 2] []) 9 true ∧ FreshRequest (arriving (request 9 true 5 [1, 2] [])) (request 9 true 5 [1, 2] []) :=
  ⟨atPacket _ _ _ _ _ (by decide +kernel) rfl rfl, fresh _ _ (by decide +kernel), exports _ _ rfl rfl, by decide +kernel,
    atPacket _ _ _ _ _ (by decide +kernel) rfl rfl, fresh _ _ (by decide +kernel), exports _ _ rfl rfl, by decide,
    atPacket _ _ _ _ _ (by decide +kernel) rfl rfl, fresh _ _ (by decide +kernel), by decide,
    atPacket _ _ _ _ _ (by decide +kernel) rfl rfl, fresh _ _ (by decide +kernel), exports _ _ rfl rfl, by decide, by decide +kernel,
    atPacket _ _ _ _ _ (by decide +kernel) rfl rfl, fresh _ _ (by decide +kernel), atPacket _ _ _ _ _ (by decide +kernel) rfl rfl, fresh _ _ (by decide +kernel),
    atPacket _ _ _ _ _ (by decide +kernel) rfl rfl, fresh _ _ (by decide +kernel)⟩

/-- The export of domain 7 as some entry. -/
def exporting (e : Export) (x : Packet) : State := { arriving x with pkg := { wired.pkg with exports := [(0, e)] } }
theorem witness_checks : AtPacket (exporting { exported with domain := 8 } readAsk) 2 readAsk 0 false ∧
    (∀ e ∈ (exporting { exported with domain := 8 } readAsk).pkg.exports, e.2.valid = true → e.2.domain ≠ readAsk.domain.toNat) ∧
    (∀ e ∈ [{ exported with revoked := true }, { exported with size := 0x300 }, { exported with ro := true }],
      atPacketB (exporting e writeAsk) 2 writeAsk = true ∧ e.valid = true ∧ e.domain = writeAsk.domain.toNat) ∧
    ({ exported with size := 0x300 } : Export).size ≤ writeAsk.line.toNat ∧ writeAsk.line.toNat < ({ exported with ro := true } : Export).size :=
  ⟨atPacket _ _ _ _ _ (by decide +kernel) rfl rfl, by decide +kernel⟩
/-- The request has been performed; its answer is kept or not. -/
def again (kept : List Packet) : State := { arriving writeAsk with fab := { wired.fab with windows := [(windowKey writeAsk, ⟨0, 5, [5], kept, [], [], []⟩)] } }
def keptAnswer : Packet := { Packet.blank with type := 3, target := 11, source := 9, seq := 5, line := 0x300 }
theorem witness_duplicate : (∀ kept ∈ [[], [keptAnswer]], ((again kept).windowFor writeAsk).done writeAsk.seq.toNat = true ∧ atPacketB (again kept) 2 writeAsk = true) ∧
    (((again []).windowFor writeAsk).kept.find? fun p => p.seq == writeAsk.seq) = none ∧
    (((again [keptAnswer]).windowFor writeAsk).kept.find? fun p => p.seq == writeAsk.seq) = some keptAnswer ∧ keptAnswer.mc = false := by decide +kernel
/-- A multicast write that has been performed comes again, on a plane that is UP or on one that is not. -/
def againCopy (plane : BitVec 5) : Packet := { request 9 true 5 [1, 2] [] with plane := plane }
def againMember (plane : BitVec 5) : State :=
  { arriving (againCopy plane) with fab := { wired.fab with windows := [(windowKey (againCopy plane), ⟨0, 5, [5], [{ keptAnswer with mc := true }], [], [], []⟩)] } }
theorem witness_duplicate_member : ∀ p ∈ [(5 : BitVec 5), 7], ((againMember p).windowFor (againCopy p)).done (againCopy p).seq.toNat = true ∧
    atPacketB (againMember p) 2 (againCopy p) = true ∧
    (((againMember p).windowFor (againCopy p)).kept.find? fun x => x.seq == (againCopy p).seq) = some { keptAnswer with mc := true } ∧
    (againMember p).upPlanes.contains p.toNat = (p == 5) := by decide +kernel
def trimmedAsk (type : BitVec 4) : Packet := { request type false 5 [] [] with trimmed := true }
theorem witness_trimmed : ∀ t ∈ [(0 : BitVec 4), 2, 4, 6], atPacketB (arriving (trimmedAsk t)) 2 (trimmedAsk t) = true ∧ (trimmedAsk t).type.toNat ∈ [0, 2, 4, 6] ∧
    (trimmedAsk t).trimmed = true ∧ ((arriving (trimmedAsk t)).windowFor (trimmedAsk t)).done (trimmedAsk t).seq.toNat = false := by decide +kernel

/-! ### Answers -/

/-- Peer 11 answers. -/
def answerOf (type status : BitVec 4) (mask : Dword) (payload : List Word) : Packet :=
  { Packet.blank with type := type, target := 9, source := 11, seq := 5, status := status, mask := mask, payload := payload, lowack := 100, line := 0x300 }
/-- A lane's access of that line. -/
def fabAcc (k : Nat) (ea : Dword) : LaneAcc := { accAt ea none [] 0 with lane := k, sent := true }
def fabLoad : LOp := { opWith (.load 8 false false) [1, 2] (fabAcc 3 (BitVec.ofNat 64 (2 * 2 ^ 55 + 11 * 2 ^ 43 + 0x304))) with accs :=
  [fabAcc 3 (BitVec.ofNat 64 (2 * 2 ^ 55 + 11 * 2 ^ 43 + 0x304)), fabAcc 4 (BitVec.ofNat 64 (2 * 2 ^ 55 + 12 * 2 ^ 43))] }
def fabAtomic : LOp := { fabLoad with kind := .atomic 0 true, dests := [1], nv := [VReg.zero] }
/-- The wired bench with an outstanding instruction whose lane 3 waits for an answer to a packet. -/
def lanesWait (o : LOp) (type : BitVec 4) (mask : Dword) (x : Packet) : State :=
  let s := awaitingAnswer wired (unackedOf (sentPacket type false mask 2) (.lanes 0 0 5 [3]))
  { s with teams := s.teams.modify 0 fun T => { T with groups := T.groups.modify 0 fun G => { G with ops := [o], nextOp := 6 } }, ev := .portPacket 2 x }
theorem answers (s : State) (x : Packet) (key : Nat) (u : Unacked)
    (h : (s.unacked? key x.seq.toNat == some u && x.epoch.toNat == s.pkg.epoch && u.ended.isNone) = true) : Answers s x key u := by
  simp only [Bool.and_eq_true, beq_iff_eq, Option.isNone_iff_eq_none] at h
  exact ⟨h.1.1, h.1.2, h.2⟩

def readAnswer : Packet := answerOf 1 0 6 [8, 9]
/-- The same with its second word poisoned. -/
def poisonAnswer : Packet := answerOf 1 4 4 [8, 9]
def loadWait : State := lanesWait fabLoad 0 6 readAnswer
theorem witness_read_response : AtPacket loadWait 2 readAnswer 1 false ∧
    Answers loadWait readAnswer 11 (unackedOf (sentPacket 0 false 6 2) (.lanes 0 0 5 [3])) ∧ readAnswer.payload.length = (maskWords 6).length ∧
    LaneOf loadWait 0 0 5 3 (teamIn loadWait) (groupIn loadWait) fabLoad ∧ 8 ∈ [1, 2, 4, 8, 16] ∧
    (∃ a, (fabLoad.accs.find? fun a => a.lane == 3) = some a ∧ ∀ j < 8, (6 : Dword).getLsbD ((a.ea.toNat % 256 + j) / 4) = true) :=
  ⟨atPacket _ _ _ _ _ (by decide +kernel) rfl rfl, answers _ _ _ _ (by decide +kernel), by decide, laneOf loadWait fabLoad (by decide +kernel), by decide,
    _, rfl, by decide⟩
theorem witness_poison_response : let s := lanesWait fabLoad 0 6 poisonAnswer
    AtPacket s 2 poisonAnswer 1 false ∧ Answers s poisonAnswer 11 (unackedOf (sentPacket 0 false 6 2) (.lanes 0 0 5 [3])) ∧
      poisonAnswer.status.toNat = 4 ∧ poisonAnswer.payload.length = (maskWords 6).length ∧ LaneOf s 0 0 5 3 (teamIn s) (groupIn s) fabLoad :=
  ⟨atPacket _ _ _ _ _ (by decide +kernel) rfl rfl, answers _ _ _ _ (by decide +kernel), rfl, by decide,
    laneOf (lanesWait fabLoad 0 6 poisonAnswer) fabLoad (by decide +kernel)⟩
/-- The wired bench with an engine operation of the fabric context that waits for a packet. -/
def engineWait (cmd : ECmd) (u : Unacked) (x : Packet) : State :=
  let s := awaitingAnswer wired u
  { s with ectxs := s.ectxs.modify 30 (fun c => { c with issued := 1, pend := [{ opOf 1 cmd true with prog := 1, sent := 5, space := 1 }] }), ev := .portPacket 2 x }
def pulled : Unacked := unackedOf (sentPacket 0 false 6 2) (.engine 30 1 0x50000 4 8)
theorem witness_read_response_engine : let s := engineWait copy16 pulled readAnswer
    AtPacket s 2 readAnswer 1 false ∧ Answers s readAnswer 11 pulled ∧ (s.eop? 30 1).any (fun o => o.num == 1 && o.space == 1 && o.failure.isNone) = true ∧
      0x50000 % 65536 + 8 ≤ 65536 ∧ s.writes 1 0x50000 0x50000 ∧ ∀ j < 8, (6 : Dword).getLsbD ((4 + j) / 4) = true :=
  ⟨atPacket _ _ _ _ _ (by decide +kernel) rfl rfl, answers _ _ _ _ (by decide +kernel), by decide +kernel, by decide, ⟨by decide +kernel, by decide⟩, by decide⟩
/-- An operation that has failed gets the rest of what it read. -/
def failedPull : State := { engineWait copy16 pulled readAnswer with
  ectxs := full.ectxs ++ [(30, { (⟨.fabric, 1, 1, 0, [], [], []⟩ : ECtx) with pend := [{ opOf 1 copy16 true with prog := 1, failure := some (.fabric, 8) }] })] }
theorem witness_read_response_failed : AtPacket failedPull 2 readAnswer 1 false ∧ Answers failedPull readAnswer 11 pulled ∧
    (failedPull.eop? 30 1).any (fun o => o.failure.isSome) = true ∧ ∃ w, exec .readResponse failedPull = .next w :=
  ⟨atPacket _ _ _ _ _ (by decide +kernel) rfl rfl, answers _ _ _ _ (by decide +kernel), by decide +kernel, _, rfl⟩
theorem witness_ack : let s := engineWait copy16 writeSent (answerOf 3 0 0 [])
    AtPacket s 2 (answerOf 3 0 0 []) 3 false ∧ Answers s (answerOf 3 0 0 []) 11 writeSent ∧ writeSent.pkt.type = 2 ∧ (s.eop? 30 1).any (fun o => o.num == 1) = true :=
  ⟨atPacket _ _ _ _ _ (by decide +kernel) rfl rfl, answers _ _ _ _ (by decide +kernel), rfl, by decide +kernel⟩
theorem witness_negative : let s := engineWait copy16 writeSent (answerOf 7 5 0 [])
    AtPacket s 2 (answerOf 7 5 0 []) 7 false ∧ Answers s (answerOf 7 5 0 []) 11 writeSent ∧ writeSent.pkt.type = 2 ∧ (s.eop? 30 1).any (fun o => o.num == 1) = true :=
  ⟨atPacket _ _ _ _ _ (by decide +kernel) rfl rfl, answers _ _ _ _ (by decide +kernel), rfl, by decide +kernel⟩
def atomicAnswer : Packet := answerOf 5 0 256 [77]
def atomicWait : State := lanesWait fabAtomic 4 256 atomicAnswer
theorem witness_atomic_response : AtPacket atomicWait 2 atomicAnswer 5 false ∧ Answers atomicWait atomicAnswer 11 (unackedOf (sentPacket 4 false 256 2) (.lanes 0 0 5 [3])) ∧
    LaneOf atomicWait 0 0 5 3 (teamIn atomicWait) (groupIn atomicWait) fabAtomic ∧ (fabAtomic.accs.find? fun a => a.lane == 3).isSome = true :=
  ⟨atPacket _ _ _ _ _ (by decide +kernel) rfl rfl, answers _ _ _ _ (by decide +kernel), laneOf atomicWait fabAtomic (by decide +kernel), rfl⟩
def refusedWait : State := lanesWait fabLoad 0 6 (answerOf 7 5 0 [])
theorem witness_negative_lane : AtPacket refusedWait 2 (answerOf 7 5 0 []) 7 false ∧
    Answers refusedWait (answerOf 7 5 0 []) 11 (unackedOf (sentPacket 0 false 6 2) (.lanes 0 0 5 [3])) ∧
    LaneOf refusedWait 0 0 5 3 (teamIn refusedWait) (groupIn refusedWait) fabLoad ∧ (answerOf 7 5 0 []).status.toNat ≠ 4 ∧ fabLoad.faults = [] ∧ ∃ b ∈ fabLoad.accs, b.lane ≠ 3 :=
  ⟨atPacket _ _ _ _ _ (by decide +kernel) rfl rfl, answers _ _ _ _ (by decide +kernel), laneOf refusedWait fabLoad (by decide +kernel), by decide, rfl, by decide⟩
/-- Answers of the other types with a status that refuses, or that tells of poison: request, answer, status. -/
def refusals : List (BitVec 4 × BitVec 4 × BitVec 4) := [(0, 1, 1), (2, 3, 8), (6, 3, 2), (2, 3, 4), (6, 3, 4), (4, 5, 3), (4, 5, 4)]
def refusal (x : BitVec 4 × BitVec 4 × BitVec 4) : Packet := answerOf x.2.1 x.2.2 0 []
def refusedLanes (x : BitVec 4 × BitVec 4 × BitVec 4) : State := lanesWait fabLoad x.1 6 (refusal x)
def refusedCopy (x : BitVec 4 × BitVec 4 × BitVec 4) : State :=
  engineWait copy16 (unackedOf (sentPacket x.1 false 6 2) (.engine 30 1 0 0 0)) (refusal x)
theorem witness_refused_packets : (refusals.all fun x => atPacketB (refusedLanes x) 2 (refusal x) && atPacketB (refusedCopy x) 2 (refusal x)) = true := by
  decide +kernel
theorem witness_refused_lanes : (refusals.all fun x => laneOfB (refusedLanes x) fabLoad &&
    (refusedLanes x).unacked? 11 5 == some (unackedOf (sentPacket x.1 false 6 2) (.lanes 0 0 5 [3]))) = true := by decide +kernel
theorem witness_refused_copies : (refusals.all fun x =>
    (refusedCopy x).unacked? 11 5 == some (unackedOf (sentPacket x.1 false 6 2) (.engine 30 1 0 0 0)) &&
      ((refusedCopy x).eop? 30 1).any fun o => o.num == 1) = true := by decide +kernel
theorem witness_resend_request : let s := engineWait copy16 writeSent (answerOf 8 0 0 [])
    AtPacket s 2 (answerOf 8 0 0 []) 8 false ∧ Answers s (answerOf 8 0 0 []) 11 writeSent :=
  ⟨atPacket _ _ _ _ _ (by decide +kernel) rfl rfl, answers _ _ _ _ (by decide +kernel)⟩

/-! ### Timeouts -/

def resending : State := { engineWait copy16 { writeSent with resendAt := some 7000 } (answerOf 3 0 0 []) with ev := .run 11 5 }
theorem witness_resend : resending.ev = .run 11 5 ∧ resending.unacked? 11 5 = some { writeSent with resendAt := some 7000 } ∧ writeSent.pkt.seq.toNat = 5 ∧
    resending.portsListed ∧ (resending.port 2).st = .up := ⟨rfl, by decide +kernel, rfl, ⟨by decide +kernel, by decide +kernel⟩, by decide +kernel⟩
/-- The packet has been sent on some planes; it is multicast or not. -/
def timing (mc : Bool) (tried : List Nat) : Unacked :=
  { unackedOf (sentPacket (if mc then 9 else 2) mc 1 2) (.engine 30 1 0 0 0) with tried := tried, positive := if mc then 3 else 0 }
def late (mc : Bool) (tried : List Nat) : State :=
  { engineWait copy16 (timing mc tried) (answerOf 3 0 0 []) with ev := .run (if mc then 4099 else 11) 5 }
theorem witness_timeout : ∀ x ∈ [(false, []), (true, []), (false, [5]), (true, [5])], let s := late x.1 x.2
    let u := timing x.1 x.2
    s.unacked? (if x.1 then 4099 else 11) 5 = some u ∧ u.resendAt = none ∧ u.ended = none ∧ (s.eop? 30 1).any (fun o => o.num == 1 && o.failure.isNone) = true ∧
      (x.2 = [] ↔ (s.upPlanes.filter fun p => p ≠ u.pkt.plane.toNat && !u.tried.contains p) ≠ []) := by decide +kernel
theorem eventRoom (s : State) (space : Nat) (x : FabCtx) (ki ke : Nat) (h1 : (x.index.toNat % 4 == 0 && x.events.toNat % 64 == 0 && s.translate space x.index.toNat .read false == .hit ki &&
    s.translate space x.index.toNat .write false == .hit ki && decide (windowOf x.index.toNat < 2) && !s.poisoned ki 4 &&
    s.translate space (x.events.toNat + 64 * (s.nat ki 4 % 64)) .write false == .hit ke && decide (windowOf (x.events.toNat + 64 * (s.nat ki 4 % 64)) < 2) && !s.poisoned ke 64 &&
    decide (ke + 64 ≤ ki ∨ ki + 4 ≤ ke)) = true) (h2 : ∀ r : List Byte, r.length = 64 → (s.store ke r).translate space x.index.toNat .write false = .hit ki) : EventRoom s space x ki ke := by
  simp only [Bool.and_eq_true, beq_iff_eq, Bool.not_eq_true', decide_eq_true_eq] at h1
  obtain ⟨⟨⟨⟨⟨⟨⟨⟨⟨a, b⟩, c⟩, d⟩, e⟩, f⟩, g⟩, h⟩, j⟩, i⟩ := h1
  exact ⟨⟨a, b⟩, ⟨⟨c, e⟩, ⟨d, e⟩⟩, f, ⟨g, h⟩, j, fun r hr => ⟨h2 r hr, e⟩, i⟩
/-- A walk that ends at a block reads the two entries on its way. -/
theorem walk_same (s t : State) (root va : Nat) (acc : Access) (priv : Bool) (a1 a2 : Nat) (ha1 : fld root 16 36 * 65536 + 8 * fld va 42 13 = a1)
    (ha2 : fld (s.nat a1 8) 16 36 * 65536 + 8 * fld va 29 13 = a2) (n1 : t.nat a1 8 = s.nat a1 8) (n2 : t.nat a2 8 = s.nat a2 8) (hp : t.poison = s.poison)
    (leaf : fld (s.nat a2 8) 1 1 = 1) (hk : t.pkg = s.pkg) : t.walkFrom root va acc priv = s.walkFrom root va acc priv := by
  unfold State.walkFrom State.poisoned
  simp only [ha1, n1, ha2, n2, hp, leaf, if_true]
  unfold State.leaf State.frameKey
  rw [hk]
theorem store_nat_below (s : State) (k : Nat) (r : List Byte) (a : Nat) (h : a + 8 ≤ k) : (s.store k r).nat a 8 = s.nat a 8 := by
  unfold State.nat State.bytes memBytes
  congr 1
  refine List.map_congr_left fun i hi => memByte_memPuts_out _ _ _ _ (.inl ?_)
  have := List.mem_range.1 hi
  omega
/-- The event area of fabric context 30 can be reached, and can be after a record is there. -/
theorem room (s : State) (hc : s.ctxs = wired.ctxs) (hm : s.mem = wired.mem) (hp : s.poison = []) (hk : s.pkg = wired.pkg) :
    EventRoom s 1 ⟨7, 0x91000, 0x92000, 50⟩ 0x92000 0x91000 := by
  have hs : ∃ x, wired.ctxs.find? 1 = some x ∧ fld (x.roots.getD (fld 0x92000 55 2) 0) 16 36 * 65536 + 8 * fld 0x92000 42 13 = 65536 := ⟨_, rfl, by decide +kernel⟩
  obtain ⟨x, hx, hr⟩ := hs
  have key (t : State) (ht : t.ctxs = wired.ctxs) (tk : t.pkg = wired.pkg) (tp : t.poison = wired.poison) (n1 : t.nat 65536 8 = wired.nat 65536 8)
      (n2 : t.nat 131072 8 = wired.nat 131072 8) (va : Nat) (hva : fld va 55 2 = fld 0x92000 55 2 ∧ fld va 42 13 = fld 0x92000 42 13 ∧ fld va 29 13 = fld 0x92000 29 13)
      (acc : Access) : t.translate 1 va acc false = wired.translate 1 va acc false := by
    unfold State.translate
    rw [ht, hx]
    simp only
    rw [walk_same wired t _ va acc false 65536 131072 (by rw [hva.1, hva.2.1]; exact hr) (by rw [hva.2.2]; decide +kernel) n1 n2 tp (by decide +kernel) tk]
    unfold State.hostSide
    rw [tk]
  have wp : wired.poison = [] := rfl
  have nat_eq (a n : Nat) : s.nat a n = wired.nat a n := by unfold State.nat State.bytes; rw [hm]
  have k0 (va : Nat) (hva) (acc) := key s hc hk (hp.trans wp.symm) (nat_eq _ _) (nat_eq _ _) va hva acc
  refine eventRoom _ _ _ _ _ ?_ fun r _ => ?_
  · have i0 : s.nat 0x92000 4 = 0 := (nat_eq _ _).trans (by decide +kernel)
    have e : ∀ l n, s.poisoned l n = false := fun l n => by unfold State.poisoned; rw [hp]; simp
    rw [i0, e, e]
    rw [k0 _ (by decide) .read, k0 _ (by decide) .write, k0 _ (by decide) .write]
    decide +kernel
  · refine (key (s.store 0x91000 _) hc hk ?_ ?_ ?_ 0x92000 (by decide) .write).trans (by decide +kernel)
    · show s.poison.filter _ = _
      rw [hp, wp]; rfl
    · rw [store_nat_below _ _ _ _ (by omega), nat_eq]
    · rw [store_nat_below _ _ _ _ (by omega), nat_eq]

theorem witness_timeout_record : let s := late true [5]
    s.fab.ctxs.find? (timing true [5]).ctx = some ⟨7, 0x91000, 0x92000, 50⟩ ∧ (s.ectxs.find? 30).any (fun c => c.space == 1) = true ∧
      s.memberCount 3 - (timing true [5]).positive = 1 ∧ (timing true [5]).negatives = [] ∧ (s.eop? 30 1).any (fun o => !o.barred) = true ∧ EventRoom { s with now := 900000 } 1 ⟨7, 0x91000, 0x92000, 50⟩ 0x92000 0x91000 ∧
      EventRoom s 1 ⟨7, 0x91000, 0x92000, 50⟩ 0x92000 0x91000 :=
  ⟨rfl, by decide +kernel, by decide +kernel, rfl, by decide +kernel, room _ rfl rfl rfl rfl, room _ rfl rfl rfl rfl⟩

/-! ### Multicast and collectives -/

/-- An aggregated acknowledgement of n members. -/
def aggregated (n : Nat) : Packet :=
  { Packet.blank with type := 11, target := 9, source := 3, seq := 5, plane := 2, mask := BitVec.ofNat 64 n }
theorem witness_aggregated : ∀ n ∈ [0, 1], let s := engineWait copy16 (timing true []) (aggregated n)
    atPacketB s 2 (aggregated n) = true ∧ s.unacked? 4099 5 = some (timing true []) ∧ (aggregated n).plane = (timing true []).pkt.plane ∧
      ({ aggregated n with plane := 5 } : Packet).plane ≠ (timing true []).pkt.plane ∧ fld (aggregated n).mask.toNat 32 16 = 0 ∧
      (if n = 0 then 3 + n + 0 < s.memberCount 3 else s.memberCount 3 ≤ 3 + n) ∧ (s.eop? 30 1).any (fun o => o.num == 1) = true := by decide +kernel
/-- A collective of 70 words on group 3, its contributions sent; chunk 1 comes back. -/
def coll : ECmd := .coll 0 0x80000 0x50000 70 3
def chunk : Packet := { Packet.blank with type := 13, target := 3, mc := true, source := 11, seq := 5, line := 256, payload := [1, 2, 3, 4, 5, 6] }
def collective (ev : EvArg) : State := { engineWait coll writeSent chunk with ev := ev }
theorem witness_collective : let s := collective (.portPacket 2 chunk)
    AtPacket s 2 chunk 13 true ∧ s.collFor 3 5 = some (30, { opOf 1 coll true with prog := 1, sent := 5 }) ∧
      s.eop? 30 1 = some { opOf 1 coll true with prog := 1, sent := 5 } ∧ chunk.line.toNat / 256 < collChunks 70 ∧
      (0x50000 + 256) % 65536 + 4 * 6 ≤ 65536 ∧ s.writes 1 (0x50000 + 256) (0x50000 + 256) :=
  ⟨atPacket _ _ _ _ _ (by decide +kernel) rfl rfl, by decide +kernel, by decide +kernel, by decide, by decide, ⟨by decide +kernel, by decide⟩⟩
theorem witness_collective_timeout : let s := collective (.engine 30 1)
    s.ev = .engine 30 1 ∧ s.eop? 30 1 = some { opOf 1 coll true with prog := 1, sent := 5 } ∧ s.fab.ctxs.find? 30 = some ⟨7, 0x91000, 0x92000, 50⟩ ∧
      ([] : List Nat).length ≠ collChunks 70 ∧ EventRoom s 1 ⟨7, 0x91000, 0x92000, 50⟩ 0x92000 0x91000 :=
  ⟨rfl, by decide +kernel, rfl, by decide, room _ rfl rfl rfl rfl⟩

end Sys2Proof.Tests
end

