-- ==== Sys2Proof/Tests/QueueWitness.lean ====
section
/-! SUPPORT. States that meet the premises of the statements about queues, launches, placement, contracts and view commits. -/
namespace Sys2Proof.Tests

-- One theorem at a time: each evaluation that waits for the kernel holds a thread of its own.
set_option Elab.async false

open Sys2Proof Sys2Proof.Machine

/-! ### Queues -/

/-- Queue 5 of function 0 with one packet to take: ring at 0x80000, pull word at 0x88100, read word at 0x88000, engine context 20. -/
def aQueue : Queue :=
  { vf := 0, space := 1, ring := 0x80000, log2 := 6, pull := 0x88100, read := 0x88000, prio := 2, realtime := false, cons := 0, prod := 1
    stopped := false, status := 0, ectx := 20, taken := 0, items := [], arm := [], loose := 0, trace := 0, traceTime := 0, miss := none
    declined := false, stopAfter := none, bell := false }

def queueCtx : ECtx := ⟨.queue 5, 1, 0, 0, [], [], []⟩

/-- The bench with that queue, changed, and bytes in its ring. -/
def withQueue (f : Queue → Queue) (bs : List Byte) : State :=
  let s := full.store 0x80000 bs
  { s with queues := [(5, f aQueue)], ectxs := s.ectxs.insert 20 queueCtx, nextCtx := 30, ev := .queue 5 }

/-- A packet of 64 bytes. -/
def packet (bs : List Byte) : List Byte := bs ++ List.replicate (64 - bs.length) 0

/-- Type, fence and six zero bytes. -/
def head8 (type fence : Byte) : List Byte := [type, fence, 0, 0, 0, 0, 0, 0]

/-- The queue of a state, and its context. -/
def queueIn (s : State) : Queue := (s.queues.find? 5).getD aQueue
def queueCtxIn (s : State) : ECtx := (s.ectxs.find? 20).getD queueCtx

theorem witness_doorbell_other : plain.queues.find? 5 = none ∧ aQueue.vf ≠ 3 := ⟨rfl, by decide⟩
/-- The pull word holds p. -/
def pulling (p : Nat) : State := { (withQueue (fun Q => { Q with prod := 0, bell := true }) []).store 0x88100 (natBytes 4 p) with ev := .bell 0 5 }
theorem witness_doorbell : ∀ p ∈ [64, 65], let s := pulling p
    s.ev = .bell 0 5 ∧ (queueIn s).vf = 0 ∧ (queueIn s).stopped = false ∧ (queueIn s).miss = none ∧ (queueIn s).pull.toNat % 4 = 0 ∧
      s.translate 1 (queueIn s).pull.toNat .read false = .hit 0x88100 ∧ windowOf (queueIn s).pull.toNat < 2 ∧ s.poisoned 0x88100 4 = false ∧
      (s.nat 0x88100 4 + 2 ^ 32 - (queueIn s).cons) % 2 ^ 32 = p := by decide +kernel

def takingB (s : State) (type : Nat) : Bool :=
  let Q := queueIn s
  let bs := s.bytes 0x80000 64
  s.ev == .queue 5 && s.queues.find? 5 == some Q && s.ectxs.find? Q.ectx == some (queueCtxIn s) &&
    (!Q.stopped && Q.miss == none && Q.stopAfter == none && Q.avail != 0) && (Q.arm.isEmpty && Q.loose == 0) &&
    (Q.slotAddr Q.cons % 64 == 0 && Q.read.toNat % 4 == 0) &&
    (decide (s.translate Q.space (Q.slotAddr Q.cons) .read false = .hit 0x80000) && windowOf (Q.slotAddr Q.cons) < 2 && !s.poisoned 0x80000 64) &&
    (packetOk bs && fieldAt bs 0 1 == type) && (decide (s.translate Q.space Q.read.toNat .write false = .hit 0x88000) && windowOf Q.read.toNat < 2)

theorem taking (s : State) (type : Nat) (h : takingB s type = true) : Taking s 5 (queueIn s) (queueCtxIn s) type (s.bytes 0x80000 64) 0x88000 := by
  unfold takingB at h
  simp only [Bool.and_eq_true, beq_iff_eq, decide_eq_true_eq, Bool.not_eq_true', bne_iff_ne] at h
  obtain ⟨⟨⟨⟨⟨⟨⟨⟨h1, h2⟩, h3⟩, ⟨⟨h4, h5⟩, h6⟩, h7⟩, ⟨h8, h15⟩⟩, h9⟩, ⟨h10, h11⟩, h12⟩, h13⟩, h14⟩ := h
  exact ⟨h1, h2, h3, ⟨h4, h5, h6, h7⟩, ⟨List.isEmpty_iff.1 h8, h15⟩, h9, ⟨_, ⟨h10, h11⟩, h12, rfl⟩, h13, h14⟩

theorem witness_NOP : Taking (withQueue id (packet [])) 5 (queueIn (withQueue id (packet []))) (queueCtxIn (withQueue id (packet []))) 0
    ((withQueue id (packet [])).bytes 0x80000 64) 0x88000 ∧ (queueIn (withQueue id (packet []))).items = [] := ⟨taking _ _ (by decide +kernel), by decide +kernel⟩
/-- Packets of the other types that only Taking bears upon: MARK, COPY, WAIT on a counter and on a word. -/
theorem witness_packets : ∀ x ∈ [(8, head8 8 0 ++ natBytes 8 7), (3, head8 3 0 ++ natBytes 8 0x90000 ++ natBytes 8 0xA0000 ++ natBytes 8 16),
    (3, head8 3 1 ++ natBytes 8 0x90000 ++ natBytes 8 0xA0000 ++ natBytes 8 16), (5, head8 5 0 ++ natBytes 8 0x90000 ++ natBytes 8 1),
    (5, head8 5 0 ++ natBytes 8 2 ++ natBytes 8 1 ++ [1]), (4, head8 4 1 ++ natBytes 8 0x90000 ++ natBytes 8 1)],
    takingB (withQueue id (packet x.2)) x.1 = true ∧ (queueIn (withQueue id (packet x.2))).items = [] ∧
      (withQueue id (packet x.2)).queueMayWait 1 2 = true ∧ (∀ z ∈ (queueCtxIn (withQueue id (packet x.2))).pend, z.num ≠ 1) ∧
      ∀ z ∈ (withQueue id (packet x.2)).ctxs, z.2.trace ≠ 7 := by decide +kernel

def signal8 : State := withQueue id (packet (head8 4 0 ++ natBytes 8 0x90000 ++ natBytes 8 1))
theorem witness_SIGNAL : takingB signal8 4 = true ∧ (signal8.store 0x88000 (natBytes 4 1)).translate 1 0x90000 .write false = .hit 0x90000 ∧
    windowOf 0x90000 < 2 ∧ (signal8.store 0x88000 (natBytes 4 1)).poisoned 0x90000 8 = false := by decide +kernel

/-- A CONTRACT packet: period, budget and deadline in ns, its classes and sectors. -/
def contractPacket (fence : Byte) (classes sectors : Byte) (period budget deadline : Nat) : State :=
  withQueue id (packet (head8 7 fence ++ natBytes 4 3 ++ [classes, sectors, 0, 0] ++ natBytes 8 period ++ natBytes 8 budget ++ natBytes 8 deadline ++
    natBytes 8 0x90000))
theorem witness_CONTRACT : (∀ s ∈ [contractPacket 1 63 1 0 0 0, contractPacket 0 63 1 0 0 0, contractPacket 0 63 64 20000 19000 20000,
      contractPacket 0 63 2 20000 1000 2000, contractPacket 0 63 2 20000 1000 20000],
      takingB s 7 = true ∧ (s.store 0x88000 (natBytes 4 1)).translate 1 (fieldAt (s.bytes 0x80000 64) 40 8) .write false = .hit 0x90000) ∧
    (sectorsFor [] 19000 20000).length < 64 ∧ 2 ≤ (sectorsFor [] 1000 20000).length ∧ 18 * (2000 - 1000) < stopTicks 63 + 18 * 6000 ∧
    stopTicks 63 + 18 * 6000 ≤ 18 * (20000 - 1000) := by decide +kernel

/-- A COND over one arm of a NOP and one of a MARK, on the word at 0x90000. -/
def choosing (x : Word) : State :=
  (withQueue (fun Q => { Q with prod := 3 })
    (packet (head8 6 0 ++ natBytes 8 0x90000 ++ natBytes 4 0xFF ++ natBytes 4 5 ++ [0, 1, 1]) ++ packet [] ++ packet (head8 8 0))).store 0x90000 (wordBytes x)
theorem witness_COND (x : Word) (h : x = 5 ∨ x = 6) : let s := choosing x
    let bs := s.bytes 0x80000 64
    let Q := queueIn s
    takingB s 6 = true ∧ fieldAt bs 25 1 + fieldAt bs 26 1 + 1 ≤ 2 ^ Q.log2 ∧ fieldAt bs 25 1 + fieldAt bs 26 1 + 1 ≤ Q.avail ∧
      (∀ i < 2, Q.slotAddr ((Q.cons + 1 + i) % 2 ^ 32) % 64 = 0 ∧
        s.translate 1 (Q.slotAddr ((Q.cons + 1 + i) % 2 ^ 32)) .read false = .hit (0x80000 + 64 * (i + 1)) ∧ s.poisoned (0x80000 + 64 * (i + 1)) 64 = false ∧
        packetOk (s.bytes (0x80000 + 64 * (i + 1)) 64) = true ∧ fieldAt (s.bytes (0x80000 + 64 * (i + 1)) 64) 0 1 ≠ 6) ∧
      s.translate 1 (fieldAt bs 8 8) .read false = .hit 0x90000 ∧ fieldAt bs 8 8 % 4 = 0 ∧ s.poisoned 0x90000 4 = false := by
  rcases h with rfl | rfl <;> decide +kernel

/-- A packet of an arm that its COND has discarded, whose turn has come; a queue reset may have left the arm behind. -/
def discarded (type : Byte) (reset : Bool) : State :=
  withQueue (fun Q => { Q with arm := [(true, packet (head8 type 0)), (false, packet [])], loose := if reset then 2 else 0
                               prod := if reset then 0 else 2 }) []
theorem witness_discarded : ∀ r ∈ [false, true],
    ∀ x ∈ [(Instr.nop, 0), (.launch, 1), (.rlaunch, 2), (.copy, 3), (.signal, 4), (.wait, 5), (.contract, 7), (.mark, 8)],
    let s := discarded (BitVec.ofNat 8 x.2) r
    s.ev = .queue 5 ∧ (queueIn s).stopped = false ∧ (queueIn s).miss = none ∧ (queueIn s).stopAfter = none ∧
      (if r then (queueIn s).avail = 0 ∧ (queueIn s).loose ≠ 0 else (queueIn s).avail ≠ 0 ∧ (queueIn s).loose = 0) ∧
      (queueIn s).items = [] ∧ (queueIn s).read.toNat % 4 = 0 ∧ s.translate 1 (queueIn s).read.toNat .write false = .hit 0x88000 ∧
      (queueIn s).arm = [(true, packet (head8 (BitVec.ofNat 8 x.2) 0)), (false, packet [])] ∧
      packetOk (packet (head8 (BitVec.ofNat 8 x.2) 0)) = true ∧ fieldAt (packet (head8 (BitVec.ofNat 8 x.2) 0)) 0 1 = x.2 := by decide +kernel

/-- The queue with one item, at an event about it. -/
def itemIn (i : QItem) (f : ECtx → ECtx) : State :=
  let s := withQueue (fun Q => { Q with prod := 0, items := [i] }) []
  { s with ev := .qitem 5 1, ectxs := s.ectxs.modify 20 fun x => f { x with issued := 1 } }
theorem witness_items : ∀ i ∈ [(⟨1, false, false, .launch 4⟩ : QItem), ⟨1, false, false, .copy⟩, ⟨1, false, false, .wait true 2 0⟩, ⟨1, false, false, .signal 0x90000 9⟩],
    let s := itemIn i id
    s.ev = .qitem 5 1 ∧ (queueIn s).items.find? (fun i => i.num == 1) = some i ∧ (queueIn s).miss = none ∧ (queueIn s).stopAfter = none ∧
      (queueCtxIn s).done = [] ∧ 1 = (queueCtxIn s).counter + 1 ∧ (queueIn s).mayStart i = true ∧ (s.launches.find? 4).isSome = true ∧
      s.translate 1 0x90000 .write false = .hit 0x90000 ∧ s.poisoned 0x90000 8 = false := by decide +kernel
theorem witness_waits : let s := (itemIn ⟨1, false, true, .wait false 0x90000 9⟩ id).store 0x90000 (natBytes 8 9)
    s.translate 1 0x90000 .read false = .hit 0x90000 ∧ s.poisoned 0x90000 8 = false ∧ 9 ≤ s.nat 0x90000 8 ∧ s.futureDone 2 0 = true := by decide +kernel

/-! ### Launch packets -/

/-- A descriptor: shape, partition, flags, grid. -/
def descriptor (shape partition flags grid : Nat) : List Byte :=
  natBytes 8 0x40000 ++ natBytes 4 partition ++ natBytes 4 (32 + 256 + 4 * 65536 + shape * 2 ^ 24) ++ natBytes 4 16 ++ natBytes 4 flags ++ natBytes 8 grid ++
    natBytes 8 0xA0000 ++ natBytes 8 0 ++ List.replicate 208 0

/-- A LAUNCH packet with that descriptor at 0x8A000, its status word at 0x90000; an RLAUNCH on the record at 0x8C000. -/
def launching (roped : Bool) (shape partition flags grid : Nat) : State :=
  let s := withQueue id (packet (head8 (if roped then 2 else 1) 0 ++ natBytes 8 0x8A000 ++ natBytes 8 0x90000 ++ if roped then natBytes 8 0x8C000 else []))
  { (s.store 0x8A000 (descriptor shape partition flags grid)).store 0x8C000 recordBytes with
    seqs := [(seqKey 1 0x8C000, ⟨[0, 1], .empty, false, [], false, false, 0, 0, none, false⟩)] }

def goodPartition : Nat := 16 + 16 * 64 + 32 * 4096

/-- What a launch's premises leave to its descriptor: well formed, and its code. -/
def verdict (s : State) (roped : Bool) : Bool × Nat :=
  let ds := s.bytes 0x8A000 256
  let L := parseLaunch 1 5 1 0x8A000 0x90000 ds
  let L := if roped then { L with rope := some 0x8C000, view := (parseRec (s.bytes 0x8C000 128)).view, dies := [0, 1], coop := true } else L
  (s.launchOk L ds, s.launchCode L)

theorem witness_LaunchPackets : ∀ r ∈ [false, true], ∀ x ∈ [((17, goodPartition, 2 ^ 12, 1), (false, 0)), ((5 + 16 * 1, goodPartition, 0, 1), (true, 1)),
      ((17, goodPartition + 1, 0, 1), (true, 2)), ((17, goodPartition, 8, 1), (true, 7)), ((17, goodPartition, 0, 2), (true, 0))],
    let s := launching r x.1.1 x.1.2.1 x.1.2.2.1 x.1.2.2.2
    takingB s (if r then 2 else 1) = true ∧ (s.newCtx .launch (queueIn s).space).1 ≠ (queueIn s).ectx ∧ s.translate 1 0x8A000 .read false = .hit 0x8A000 ∧ s.poisoned 0x8A000 256 = false ∧
      s.translate 1 0x90000 .write false = .hit 0x90000 ∧ s.translate 1 0x8C000 .read false = .hit 0x8C000 ∧ s.poisoned 0x8C000 128 = false ∧
      (s.seqs.find? (seqKey 1 0x8C000)).any (fun q => !q.retiring) = true ∧ verdict s r = x.2 := by
  decide +kernel
theorem witness_launch_read (n : Nat) (h : n = 4 ∨ n = 30 * 2 ^ 40) :
    ((launching false 17 goodPartition 0 2).store 0x90000 (natBytes 8 n)).translate 1 0x88000 .write false = .hit 0x88000 ∧ windowOf 0x88000 < 2 := by
  rcases h with rfl | rfl <;> decide +kernel

/-! ### Placement -/

/-- A launch of two clusters that waits for cores; nothing else is resident. -/
def placing (coop : Bool) (grid : Nat) : State :=
  let s := plain
  { s with teams := [], nextTeam := 3, launches := [(9, { programLaunch with placed := 0, grid := grid, coop := coop, clusters := [], width := 2 })], nextCtx := 40
           ectxs := s.ectxs ++ [(9, ⟨.launch, 1, 0, 0, [], [], []⟩)] }
theorem witness_place : let s := { placing false 2 with ev := .place 9 3 1 2 }
    s.ev = .place 9 3 1 2 ∧ ∃ L, s.launches.find? 9 = some L ∧ L.coop = false ∧ s.rectFits L L.placed 3 1 2 = true ∧ (s.link 3).mayAsk = true ∧
      s.launchTurn 9 L = true ∧ L.started = true ∧ L.complete = false ∧ L.placed < L.grid ∧ 0 < L.width ∧ 0 < L.height ∧
      ∀ o ∈ s.launches, o ≠ (9, L) → o.2.waits = false :=
  ⟨rfl, _, rfl, rfl, by decide +kernel, by decide +kernel, by decide +kernel, rfl, rfl, by decide, by decide, by decide, by decide⟩
theorem witness_coop_one : let s := { placing true 1 with ev := .rects 9 [(3, 1, 2)] }
    s.ev = .rects 9 [(3, 1, 2)] ∧ ∃ L, s.launches.find? 9 = some L ∧ L.coop = true ∧ L.grid = 1 ∧ L.placed = 0 ∧ L.started = true ∧
      L.complete = false ∧ L.reserved = false ∧ 0 < L.width ∧ 0 < L.height ∧ s.rectFits L 0 3 1 2 = true ∧ (s.link 3).mayAsk = true ∧
      ∀ o ∈ s.launches, o ≠ (9, L) → o.2.waits = false :=
  ⟨rfl, _, rfl, rfl, rfl, rfl, rfl, rfl, rfl, by decide, by decide, by decide +kernel, by decide +kernel, by decide⟩
theorem witness_coop : let rs := [(3, 1, 2), (4, 0, 0)]
    let s := { placing true 2 with ev := .rects 9 rs }
    s.ev = .rects 9 rs ∧ ∃ L, s.launches.find? 9 = some L ∧ L.coop = true ∧ rs.length = L.grid ∧ s.launchTurn 9 L = true ∧
      (∀ r ∈ rs, (s.link r.1).mayAsk = true) ∧ (State.reserve 9 (s.serve L) rs).isSome = true :=
  ⟨rfl, _, rfl, rfl, rfl, by decide +kernel, by decide +kernel, by decide +kernel⟩
/-- Placed teams of two clusters whose sector has their messages, halted by a debugger or not. -/
def placed (d : Bool) : State :=
  let T : Team := { programTeam with st := .placed, debug := d }
  { plain with ev := .launch 4, teams := [(0, T), (1, { T with cix := 1 })]
               launches := [(4, { programLaunch with grid := 2, placed := 2, clusters := [(0, ⟨0, 0, 0, [0], [], 0, 500⟩), (1, ⟨0, 0, 0, [1], [], 0, 900⟩)] })] }
theorem witness_team_start (d : Bool) : let s := placed d
    ∃ L, s.ev = .launch 4 ∧ s.launches.find? 4 = some L ∧
      ∃ x ∈ L.clusters, (∃ y ∈ s.teams, y.2.launch = 4 ∧ y.2.cix = x.1 ∧ y.2.st = .placed) ∧
        ∀ y ∈ L.clusters, x.2.startAt ≤ y.2.startAt := by
  cases d <;> exact ⟨_, rfl, rfl, (0, ⟨0, 0, 0, [0], [], 0, 500⟩), by decide, by decide +kernel, by decide⟩

/-! ### Contracts and views -/

/-- A contract before its deadline or after it, with so many teams that its count has still to take. -/
def aContract (judged : Bool) (owed : Nat) : Contract :=
  ⟨1, 3, 63, [0], 20000, 1000, 15000, 0x90000, 100, judged, [(0, 18001)], owed, none, false⟩
/-- A bound contract and a launch under it. -/
def contracted (judged : Bool) (owed : Nat) : State :=
  { full with ev := .contract 1 3, contracts := [aContract judged owed]
              launches := full.launches.modify 4 fun L => { L with realtime := true, contract := 3 } }
theorem witness_contract : ∀ x ∈ [(false, 0), (false, 2), (true, 2), (true, 0)], let s := contracted x.1 x.2
    s.ev = .contract 1 3 ∧ s.contract? 1 3 = some (aContract x.1 x.2) ∧ s.translate 1 0x90008 .write false = .hit 0x90008 ∧
      s.translate 1 0x90008 .read false = .hit 0x90008 ∧ s.poisoned 0x90008 4 = false ∧
      (∃ y ∈ (aContract x.1 x.2).used, 18 * (aContract x.1 x.2).budget < y.2) ∧
      (s.launches.find? 4).any (fun L => L.under 1 3 && !L.spent && !L.complete && decide (0 < L.placed)) = true := by decide +kernel
/-- Time has passed the end of a judged contract's period. -/
theorem witness_contract_late : let s : State := { contracted true 0 with now := 18 * 30000 }
    s.contract? 1 3 = some (aContract true 0) ∧ 100 + 18 * 20000 < s.now ∧ 0 ∈ (aContract true 0).sectors ∧
      s.runsFor (aContract true 0) 0 = true := by decide +kernel
/-- A record that asks for width 3, with steps open or none; a roped launch on it that waits. -/
def committing (steps : List (Nat × Nat)) : State :=
  let s := spaceAs' ((stepping none).store 0x80008 (natBytes 1 (2 + 16 * 3)))
  { s with ev := .view 1 0x80000, seqs := [(seqKey 1 0x80000, ⟨[0, 1], .empty, false, steps, false, false, 0, 0, none, false⟩)]
           launches := s.launches ++ [(9, { programLaunch with rope := some 0x80000, coop := true, placed := 0, dies := [0, 1], clusters := [] })] }
where spaceAs' (s : State) : State := { s with ctxs := s.ctxs.modify 1 fun x => { x with policy := ⟨8, 2, 0⟩ } }
theorem witness_view : ∀ steps ∈ [[], [(0, 0)]], let s := committing steps
    let r := parseRec (s.bytes 0x80000 128)
    s.ev = .view 1 0x80000 ∧ s.translate 1 0x80000 .read false = .hit 0x80000 ∧ s.poisoned 0x80000 128 = false ∧
      (s.seqs.find? (seqKey 1 0x80000)).any (fun q => !q.retiring && !q.commit && q.miss == none && q.steps == steps && s.commitWidth 1 r q == 3) = true ∧ r.w ≠ 3 ∧
      s.translate 1 0x80008 .write false = .hit 0x80008 ∧ (s.store 0x80008 (natBytes 1 3)).translate 1 0x80010 .write false = .hit 0x80010 ∧
      s.launches.sorted = true ∧ s.launches.all (fun l => l.1 == 4 || s.launchCode { l.2 with dies := [0, 1, 2], view := r.view + 1 } == 0) = true := by
  decide +kernel

end Sys2Proof.Tests
end

