-- ==== Sys2Proof/Tests/PackageWitness.lean ====
section
/-! SUPPORT. States that meet the premises of the statements about the admin ring, firmware, the package and its host, pages and errors. -/
namespace Sys2Proof.Tests

-- One theorem at a time: each evaluation that waits for the kernel holds a thread of its own.
set_option Elab.async false

open Sys2Proof Sys2Proof.Machine

/-! ### The admin ring -/

/-- The admin ring at host address 0x1000, its pull and read words behind it; the pull word holds p. -/
def ring (p : Nat) (stage : Nat) (bs : List Byte) : State :=
  let s := (full.store (hostKey + 0x1000) bs).store (hostKey + 0x3000) (natBytes 4 p)
  { s with pkg := { s.pkg with stage := stage, adminBase := 0x1000, adminLog2 := 6, adminPull := 0x3000, adminRead := 0x3010 } }
theorem witness_admin_early : (ring 1 2 []).pkg.served = false ∧ (ring 1 2 []).pkg.stage ≠ 8 ∧ (ring 1 8 []).pkg.stage = 8 ∧ (ring 1 9 []).pkg.stage = 9 :=
  ⟨rfl, by decide, rfl, rfl⟩
theorem witness_admin_ring : (∀ p ∈ [1, 64, 65], let s := ring p 3 [1]
    s.pkg.served = true ∧ 6 ≤ s.pkg.adminLog2 ∧ s.pkg.adminLog2 ≤ 16 ∧ (s.nat (hostKey + s.pkg.adminPull.toNat) 4 + 2 ^ 32 - s.pkg.adminCons) % 2 ^ 32 = p) ∧
    2 ^ (ring 65 3 [1]).pkg.adminLog2 < 65 ∧ (ring 1 3 [1]).pkg.cmds = [] := by decide +kernel
/-- The command that the ring holds: one that waits for its turn, one with a code of no command. -/
theorem witness_admin_take : ∀ x ∈ [((0x12 : Byte), none), (0x15, some 1)], let s := ring 1 3 [x.1]
    s.pkg.refusesNow ⟨s.pkg.adminCons, s.bytes (hostKey + s.pkg.adminBase.toNat + 64 * (s.pkg.adminCons % 2 ^ s.pkg.adminLog2)) 64, false, false, false, none⟩ =
      x.2 := by decide +kernel

/-- A command: its code, the operand bytes from 8 on; its completion goes to host address 0x4000. -/
def cmdOf (code : Byte) (ops : List Byte) (began : Bool) : AdminCmd :=
  ⟨7, [code, 0, 0, 0, 0, 0, 0, 0] ++ ops ++ List.replicate (40 - ops.length) 0 ++ natBytes 8 0x4000 ++ List.replicate 8 0, false, began, false, none⟩
/-- A state with that one command. -/
def ordered (s : State) (c : AdminCmd) : State := { s with ev := .cmd 0 false, pkg := { s.pkg with cmds := [c] } }

theorem atCommand (s : State) (code : Nat) (c : AdminCmd) (began : Bool) (h : (s.ev == .cmd 0 false && s.pkg.cmds == [c] && c.code == code &&
    s.pkg.mayStart c && c.formed && s.pkg.stage != 10 && c.began == began) = true) : AtCommand s code c began := by
  simp only [Bool.and_eq_true, beq_iff_eq, bne_iff_ne] at h
  obtain ⟨⟨⟨⟨⟨⟨a, b⟩, d⟩, e⟩, f⟩, g⟩, i⟩ := h
  exact ⟨⟨0, a, by simp [b]⟩, d, e, f, g, i, by simp [b], by simp [b]⟩

/-- Another firmware command has begun: FW WRITE has to wait, and is told so. -/
theorem witness_refused_now : (cmdOf 0x10 (natBytes 8 0x5000 ++ natBytes 4 256) false).formed = true ∧
    (∃ x ∈ (ordered full (cmdOf 0x11 [1] true)).pkg.cmds, x.code ∈ [0x10, 0x11, 0x12] ∧ x.began = true) ∧ operandsOf 0x15 = none := by decide +kernel

/-- BIND of a context descriptor at 0x90000 to address space 2. -/
def bindCmd : AdminCmd := cmdOf 0x01 (natBytes 8 0x90000 ++ [3]) false
def binding : State :=
  ordered (full.store 0x90000 (natBytes 8 (1 + 65536) ++ natBytes 24 0 ++ natBytes 8 0x41000 ++ natBytes 8 0 ++ natBytes 4 64 ++ natBytes 2 2)) bindCmd
theorem witness_BIND : AtCommand binding 0x01 bindCmd false ∧ bindCmd.f 8 8 % 256 = 0 ∧ bindCmd.f 8 8 < hbmBytes ∧ bindCmd.f 16 1 < 64 ∧
    (∀ i ∈ [2, 3], fieldAt (binding.bytes (bindCmd.f 8 8) 256) (8 * i) 8 = 0) ∧ (∀ i ∈ [0, 1], rootOk (fieldAt (binding.bytes (bindCmd.f 8 8) 256) (8 * i) 8) = true) ∧
    binding.ctxs.find? (fieldAt (binding.bytes (bindCmd.f 8 8) 256) 52 2) = none :=
  ⟨atCommand _ _ _ _ (by decide +kernel), by decide +kernel⟩

def unbindCmd : AdminCmd := cmdOf 0x02 [1, 0] false
def unbinding : State := ordered { full with teams := [] } unbindCmd
theorem witness_UNBIND : AtCommand unbinding 0x02 unbindCmd false ∧ (unbinding.ctxs.find? (unbindCmd.f 8 2)).isSome = true ∧
    (∀ t ∈ unbinding.teams, t.2.space = unbindCmd.f 8 2 → t.2.st = .retired) ∧ (∀ q ∈ unbinding.queues, q.2.space ≠ 1) ∧ (∀ q ∈ unbinding.seqs, q.1 / 2 ^ 64 ≠ 1) :=
  ⟨atCommand _ _ _ _ (by decide +kernel), by decide +kernel⟩
theorem witness_UNBIND_busy : AtCommand (ordered full unbindCmd) 0x02 unbindCmd false ∧
    ∃ t ∈ (ordered full unbindCmd).teams, t.2.space = unbindCmd.f 8 2 ∧ t.2.st ≠ .retired := ⟨atCommand _ _ _ _ (by decide +kernel), by decide +kernel⟩

/-- QUEUE SET of queue 5: ring, level, space, pull and read words. -/
def queueSetCmd : AdminCmd :=
  cmdOf 0x03 (natBytes 4 5 ++ [6, 4] ++ natBytes 2 1 ++ natBytes 8 0x80000 ++ natBytes 8 0x88100 ++ natBytes 8 0x88000) false
theorem witness_QUEUE_SET : (∀ s ∈ [full, withQueue id [], withQueue (fun Q => { Q with items := [⟨1, false, true, .copy⟩] }) []],
      (s.ctxs.find? (queueSetCmd.f 14 2)).isSome = true) ∧ AtCommand (ordered full queueSetCmd) 0x03 queueSetCmd false ∧
    AtCommand (ordered (withQueue id []) queueSetCmd) 0x03 queueSetCmd false ∧ queueSetCmd.f 8 4 < 32768 ∧ 6 ≤ queueSetCmd.f 12 1 ∧ queueSetCmd.f 12 1 ≤ 16 ∧
    queueSetCmd.f 13 1 ≤ 4 ∧ queueSetCmd.f 16 8 % 4096 = 0 ∧ queueSetCmd.f 24 8 % 4 = 0 ∧ queueSetCmd.f 32 8 % 4 = 0 ∧
    full.queues.find? 5 = none ∧ ((withQueue id []).queues.find? 5).any (fun Q => Q.items == []) = true :=
  ⟨by decide +kernel, atCommand _ _ _ _ (by decide +kernel), atCommand _ _ _ _ (by decide +kernel), by decide +kernel⟩
def queueResetCmd : AdminCmd := cmdOf 0x04 (natBytes 4 5) false
def resetting : State := ordered ((withQueue (fun Q => { Q with stopped := true, status := 9 }) []).store 0x88100 (natBytes 4 77)) queueResetCmd
theorem witness_QUEUE_RESET : AtCommand resetting 0x04 queueResetCmd false ∧ queueResetCmd.f 8 4 < 32768 ∧ (queueIn resetting).pull.toNat % 4 = 0 ∧
    resetting.translate 1 (queueIn resetting).pull.toNat .read false = .hit 0x88100 ∧ windowOf 0x88100 < 2 ∧ resetting.poisoned 0x88100 4 = false :=
  ⟨atCommand _ _ _ _ (by decide +kernel), by decide +kernel⟩

/-- FAULT REPLY to token 4; a split waits on it. -/
def replyCmd (verdict : Byte) : AdminCmd := cmdOf 0x06 (natBytes 8 4 ++ [verdict]) false
def missing (verdict : Byte) : State :=
  let s := parked (.walk 4) none id
  { ordered s (replyCmd verdict) with parked := [(4, ⟨1, 0x1000, 0, false, 0, [.split 0 0 0]⟩)], nextToken := 5 }
theorem witness_FAULT_REPLY : (∀ v ∈ [0, 1, 2], (missing v).parked.find? ((replyCmd v).f 8 8) = some ⟨1, 0x1000, 0, false, 0, [.split 0 0 0]⟩ ∧ (replyCmd v).f 16 1 ≤ 2 ∧
      (replyCmd v).f 8 8 < (missing v).nextToken ∧ (splitIn (missing v)).wait = .walk 4 ∧ (splitIn (missing v)).st = .blocked) ∧
    AtCommand (missing 0) 0x06 (replyCmd 0) false ∧ AtCommand (missing 1) 0x06 (replyCmd 1) false ∧ AtCommand (missing 2) 0x06 (replyCmd 2) false ∧
    AtCommand (ordered full (replyCmd 0)) 0x06 (replyCmd 0) false ∧ (ordered full (replyCmd 0)).parked.find? ((replyCmd 0).f 8 8) = none :=
  ⟨by decide +kernel, atCommand _ _ _ _ (by decide +kernel), atCommand _ _ _ _ (by decide +kernel), atCommand _ _ _ _ (by decide +kernel),
    atCommand _ _ _ _ (by decide +kernel), by decide +kernel⟩
def poolCmd : AdminCmd := cmdOf 0x07 ([0, 0, 0, 0, 0, 0, 0, 0] ++ natBytes 8 0x100000 ++ natBytes 8 0x100000) false
theorem witness_SAVE_POOL : AtCommand (ordered full poolCmd) 0x07 poolCmd false ∧ AtCommand (ordered (outside false) poolCmd) 0x07 poolCmd false ∧ poolCmd.f 8 1 < 64 ∧
    poolCmd.f 16 8 % 65536 = 0 ∧ poolCmd.f 24 8 % 65536 = 0 ∧ poolCmd.f 16 8 + poolCmd.f 24 8 ≤ hbmBytes ∧ (∀ t ∈ full.teams, t.2.st = .running) ∧
    ((outside false).teams.any fun t => t.2.st == .out false && (outside false).vfOf t.2.space == poolCmd.f 8 1) = true :=
  ⟨atCommand _ _ _ _ (by decide +kernel), atCommand _ _ _ _ (by decide +kernel), by decide +kernel⟩
def policyCmd : AdminCmd := cmdOf 0x0B ([1, 0, 8, 2] ++ natBytes 4 500) false
def shareCmd : AdminCmd := cmdOf 0x0C [3, 8] false
def tailed : State := { full with tails := [(tailKey 1 0, ⟨[], [], []⟩)] }
def armCmd (on : Byte) : AdminCmd := cmdOf 0x0D ([1, 0, on, 0, 0, 0, 0, 0] ++ natBytes 8 7) false
theorem witness_policies : AtCommand (ordered full policyCmd) 0x0B policyCmd false ∧ (1 ≤ policyCmd.f 10 1 ∧ policyCmd.f 10 1 ≤ 8 ∧ 2 ≤ policyCmd.f 11 1 ∧ policyCmd.f 11 1 ≤ 16) ∧
    AtCommand (ordered full shareCmd) 0x0C shareCmd false ∧ AtCommand (ordered tailed shareCmd) 0x0C shareCmd false ∧ shareCmd.f 9 1 ≤ 8 ∧
    (∃ t ∈ tailed.tails, t.1 / 4096 < 8 ∧ fld (shareCmd.f 8 1) (t.1 / 4096) 1 = 1) ∧ AtCommand (ordered full (armCmd 1)) 0x0D (armCmd 1) false ∧
    AtCommand (ordered full (armCmd 0)) 0x0D (armCmd 0) false ∧ (armCmd 1).f 10 1 ≤ 1 ∧ (full.ctxs.find? 1).isSome = true :=
  ⟨atCommand _ _ _ _ (by decide +kernel), by decide +kernel, atCommand _ _ _ _ (by decide +kernel), atCommand _ _ _ _ (by decide +kernel), by decide +kernel,
    by decide +kernel, atCommand _ _ _ _ (by decide +kernel), atCommand _ _ _ _ (by decide +kernel), by decide +kernel⟩

/-! ### Memory commands -/

/-- TABLE UPDATE of the leaf entry that would map page 0x200 to frame 0x300; of a block entry of step 2. -/
def tableCmd (step : Byte) (addr entry : Nat) : AdminCmd := cmdOf 0x05 ([1, 0, step, 0, 0, 0, 0, 0] ++ natBytes 8 addr ++ natBytes 8 entry) false
theorem witness_TABLE_UPDATE : AtCommand (ordered plain (tableCmd 3 0xB0000 (15 + 0x300 * 65536))) 0x05 (tableCmd 3 0xB0000 (15 + 0x300 * 65536)) false ∧
    AtCommand (ordered plain (tableCmd 2 0x20008 (15 + 8192 * 65536))) 0x05 (tableCmd 2 0x20008 (15 + 8192 * 65536)) false ∧
    ∀ x ∈ [((3 : Byte), 0xB0000, 15 + 0x300 * 65536), (2, 0x20008, 15 + 8192 * 65536)], let c := tableCmd x.1 x.2.1 x.2.2
      let s := ordered plain c
      1 ≤ c.f 10 1 ∧ c.f 10 1 ≤ 3 ∧ c.f 16 8 % 8 = 0 ∧ c.f 16 8 < hbmBytes ∧ entryOk (c.f 10 1) (c.f 24 8) = true ∧ (s.ctxs.find? (c.f 8 2)).isSome = true ∧
        s.agrees (s.writeEntry (c.f 8 2) (c.f 10 1) (c.f 16 8) (c.f 24 8)) = true ∧ fld (c.f 24 8) 0 1 = 1 ∧ fld (c.f 24 8) 1 1 = 1 ∧ fld (c.f 24 8) 52 4 ≠ 2 ∧
        (s.frameKey (fld (c.f 24 8) 52 4) (fld (c.f 24 8) 16 36 * 65536)).isSome = true ∧ s.owners = [] :=
  ⟨atCommand _ _ _ _ (by decide +kernel), atCommand _ _ _ _ (by decide +kernel), by decide +kernel⟩
def blocksCmd (first n : Nat) : AdminCmd := cmdOf 0x08 ([1, 0, 0, 0] ++ natBytes 4 first ++ natBytes 4 n) false
theorem witness_BLOCK_POOL : AtCommand (ordered full (blocksCmd 5 3)) 0x08 (blocksCmd 5 3) false ∧
    AtCommand (ordered full (blocksCmd 33554431 2)) 0x08 (blocksCmd 33554431 2) false ∧ (blocksCmd 5 3).f 10 1 ≤ 1 ∧ 5 + 3 ≤ full.tierBlocks 0 ∧
    full.tierBlocks 0 < 33554431 + 2 := ⟨atCommand _ _ _ _ (by decide +kernel), atCommand _ _ _ _ (by decide +kernel), by decide +kernel⟩
def retireCmd : AdminCmd := cmdOf 0x09 ([1, 0, 0, 0, 0, 0, 0, 0] ++ natBytes 8 0x80000) false
theorem witness_SEQUENCE_RETIRE : AtCommand (ordered (stepping none) retireCmd) 0x09 retireCmd false ∧ AtCommand (ordered (committing [(0, 0)]) retireCmd) 0x09 retireCmd false ∧
    retireCmd.f 16 8 % 256 = 0 ∧ ((stepping none).seqs.find? (seqKey 1 (retireCmd.f 16 8))).any (fun q => q.steps == []) = true ∧
    (stepping none).recordBusy 1 0x80000 = false ∧ ((committing [(0, 0)]).seqs.find? (seqKey 1 (retireCmd.f 16 8))).any (fun q => q.steps != []) = true :=
  ⟨atCommand _ _ _ _ (by decide +kernel), atCommand _ _ _ _ (by decide +kernel), by decide +kernel⟩
/-- DEMOTE of position 0 of the record, whose block table entry names block 0x400. A second tier of 16 GiB is there. -/
def demoteCmd : AdminCmd := cmdOf 0x0A ([1, 0, 0, 0, 0, 0, 0, 0] ++ natBytes 8 0x80000 ++ natBytes 4 0) false
def demoting : State :=
  let s := (stepping none).store 0x90000 (natBytes 4 (2 * 2 ^ 30 + 0x400))
  ordered { s with ctxs := s.ctxs.modify 1 fun x => { x with pool1 := [9] }, pkg := { s.pkg with cxl := [(0, 2 ^ 34)] } } demoteCmd
theorem witness_DEMOTE : AtCommand demoting 0x0A demoteCmd false ∧ demoteCmd.f 16 8 % 256 = 0 ∧
    (let r := parseRec (demoting.bytes 0x80000 128)
     demoteCmd.f 24 4 < r.length ∧ (r.btab + 4 * demoteCmd.f 24 4) % 4 = 0 ∧ demoting.translate 1 (r.btab + 4 * demoteCmd.f 24 4) .read false = .hit 0x90000 ∧
       demoting.translate 1 (r.btab + 4 * demoteCmd.f 24 4) .write false = .hit 0x90000) ∧
    demoting.translate 1 0x80000 .read false = .hit 0x80000 ∧ demoting.poisoned 0x80000 128 = false ∧ demoting.poisoned 0x90000 4 = false ∧
    demoting.nat 0x90000 4 = 2 * 2 ^ 30 + 0x400 ∧ ((demoting.ctxs.find? 1).any fun x => SMap.getD x.pins 0x400 0 == 0 && x.pool1.head? == some 9) = true ∧
    demoting.frameKey 0 (0x400 * 65536) = some (0x400 * 65536) ∧ demoting.frameKey 1 (9 * 65536) = some (tierOneKey + 9 * 65536) :=
  ⟨atCommand _ _ _ _ (by decide +kernel), by decide +kernel⟩
/-- The old block has been zeroed and is in its pool again. -/
def demoted : AdminCmd := { demoteCmd with began := true, moved := some (0x400, 9) }
theorem witness_DEMOTE_done : AtCommand (ordered (stepping none) demoted) 0x0A demoted true ∧ demoted.f 16 8 % 256 = 0 ∧
    ∃ x, (ordered (stepping none) demoted).ctxs.find? (demoted.f 8 2) = some x ∧ 0x400 ∉ x.release :=
  ⟨atCommand _ _ _ _ (by decide +kernel), by decide +kernel, _, rfl, by decide⟩

/-! ### Teams -/

/-- PRE-EMPT and DEBUG of launch 4. -/
def preemptCmd : AdminCmd := cmdOf 0x0E ([1, 0, 0, 0, 0, 0, 0, 0] ++ natBytes 3 4) false
def debugCmd (act : Byte) (began : Bool) : AdminCmd := cmdOf 0x0F ([1, 0, act, 0, 0, 0, 0, 0] ++ natBytes 3 4) began
def debugged (st : TeamSt) : State := teamAs fun T => { T with st := st, debug := true, groups := List.map (fun g => (g.1, Group.freeze g.2)) T.groups }
theorem witness_PRE_EMPT : let s := ordered (pooled full) preemptCmd
    let saved (T : Team) : Bool := T.launch == 4 && T.resident && T.cause.isNone && !T.over
    AtCommand s 0x0E preemptCmd false ∧ (s.launches.find? (preemptCmd.f 16 3)).any (fun L => L.space == 1) = true ∧
    (s.teams.filter fun t => saved t.2) = [(0, (who full).team)] ∧ Quiet s 0 (who full).team ∧ (∃ off, SaveRoom s 0 (who full).team off) ∧
    AtCommand (ordered (outside false) preemptCmd) 0x0E preemptCmd false ∧ (∀ t ∈ (outside false).teams, saved t.2 = false) ∧
    (ordered full preemptCmd).saveRoom ((ordered full preemptCmd).vfOf 1) ((ordered full preemptCmd).recordSize 0 (who full).team) = none :=
  ⟨atCommand _ _ _ _ (by decide +kernel), by decide +kernel, by decide +kernel, quiet _ _ _ (by decide +kernel), saveRoom _ _ _ (by decide +kernel),
    atCommand _ _ _ _ (by decide +kernel), by decide +kernel, by decide +kernel⟩
theorem witness_DEBUG : AtCommand (ordered full (debugCmd 0 false)) 0x0F (debugCmd 0 false) false ∧
    (let T := (who full).team
     T.st = .running ∧ T.launch = 4 ∧ T.st ≠ .retired ∧ T.cause = none ∧ T.over = false ∧ T.debug = false) ∧
    AtCommand (ordered (outside false) (debugCmd 0 false)) 0x0F (debugCmd 0 false) false ∧ (∀ t ∈ (outside false).teams, t.2.st = .out false ∧ t.2.over = false) ∧
    AtCommand (ordered (retiring none) (debugCmd 0 false)) 0x0F (debugCmd 0 false) false ∧ (∀ t ∈ (retiring none).teams, t.2.over = true) ∧
    AtCommand (ordered (debugged .halted) (debugCmd 0 true)) 0x0F (debugCmd 0 true) true ∧
    (∀ t ∈ (debugged .halted).teams, t.2.launch = 4 → t.2.debug = true → t.2.st.isHalting = false) ∧
    AtCommand (ordered (debugged .halted) (debugCmd 1 false)) 0x0F (debugCmd 1 false) false ∧
    (∀ t ∈ (debugged .halted).teams, t.2.st = .halted ∧ t.2.cause = none ∧ t.2.debug = true ∧ t.2.faulting = none ∧ t.2.over = false ∧
      ∀ G ∈ t.2.groups, G.2.saved = none ∧ G.2.pending = [] ∧ G.2.held = []) :=
  ⟨atCommand _ _ _ _ (by decide +kernel), by decide +kernel, atCommand _ _ _ _ (by decide +kernel), by decide +kernel, atCommand _ _ _ _ (by decide +kernel),
    by decide +kernel, atCommand _ _ _ _ (by decide +kernel), by decide +kernel, atCommand _ _ _ _ (by decide +kernel), by decide +kernel⟩

/-- A team that a debugger has halted while it was out. -/
def debuggedOut : State := { outside true with teams := (outside true).teams.modify 0 fun T => { T with debug := true } }
theorem witness_DEBUG_out : AtCommand (ordered debuggedOut (debugCmd 1 false)) 0x0F (debugCmd 1 false) false ∧
    (debuggedOut.teams.find? 0).any (fun T => T.st == .out true && T.launch == 4 && T.cause == none && !T.over && T.debug && T.faulting == none) = true ∧
    (∀ t ∈ debuggedOut.teams, t.2.st.isHalting = false) := ⟨atCommand _ _ _ _ (by decide +kernel), by decide +kernel⟩

/-! ### Firmware -/

/-- An image of security version 1 without a body, its signature made for a key whose hash is `rootKey`: r = s is the digest, so that the
verification adds the base point and the key. -/
def image : List Byte :=
  let e : Nat := 0xaf2ea391eed12cd8c294f42235693c566516c30d99a6350e86b2e0301dc710d9
  [0x45, 0x52, 0x54, 0x4D] ++ natBytes 4 1 ++ natBytes 4 1 ++ List.replicate 116 0 ++ bigBytes 32 e ++ bigBytes 32 e ++
    bigBytes 32 0x37966ce781ba666993c8315e5164ea12d40eb56655800a8bf6f561a125181c54 ++
    bigBytes 32 0xf90c610c006ccf85fcd5edaa8346dd46131759412cf2c6d4fb0a274aa771c8ac
def rootKey : Nat := 0x8e56f51c4a706cf806c519c4ca6ecd970141bfe9750fcdc0c05e72f6eaf33510
theorem image_good : verifyImage rootKey image (areaBytes - 256) 0 = 1 := by decide +kernel
theorem image_good_window : verifyImage rootKey image (2 ^ 26 - 256) 0 = 1 := by
  have h : bodyLength image = 0 := by decide +kernel
  rw [← image_good]
  unfold verifyImage
  simp only [h, Nat.not_lt_zero, decide_false]
theorem image_bad : verifyImage rootKey [] (areaBytes - 256) 0 = 2 ∧ verifyImage rootKey (List.replicate 256 0) (2 ^ 26 - 256) 0 = 2 := by decide +kernel

/-- A readable slot that holds the image passes. -/
theorem slot_good {p : Pkg} {unread : List Nat} {k : Nat} (h1 : (unread.contains k || p.badSlots.contains k) = false)
    (h2 : p.slotImage k = image) (h3 : p.rootKey = rootKey) (h4 : p.fuses = 0) : p.verifySlot unread k = 1 := by
  unfold Pkg.verifySlot
  rw [h1, h2, h3, h4, if_neg Bool.false_ne_true, image_good]

/-- The image in slot 0 of the flash, the marker in copy 0; slot 1 runs. -/
def flashed (s : State) (seq slot : Nat) : State :=
  { s with pkg := { s.pkg with
      rootKey := rootKey, slot := 1
      flash := image.zipIdx.map (fun x => (x.2, x.1)) ++
        (markerHead seq slot ++ List.replicate 44 0xFF ++ List.replicate 4 0x5A).zipIdx.map fun (x : Byte × Nat) => (areaBytes + x.2, x.1) } }
def writeCmd (began : Bool) : AdminCmd := cmdOf 0x10 (natBytes 8 0x5000 ++ natBytes 4 256) began
theorem witness_FW_WRITE : AtCommand (ordered (full.store (hostKey + 0x5000) image) (writeCmd false)) 0x10 (writeCmd false) false ∧
    (full.store (hostKey + 0x5000) image).bytes (hostKey + (writeCmd false).f 8 8) ((writeCmd false).f 16 4) = image ∧
    AtCommand (ordered full (writeCmd false)) 0x10 (writeCmd false) false ∧ full.bytes (hostKey + (writeCmd false).f 8 8) ((writeCmd false).f 16 4) = List.replicate 256 0 :=
  ⟨atCommand _ _ _ _ (by decide +kernel), by decide +kernel, atCommand _ _ _ _ (by decide +kernel), by decide +kernel⟩
/-- FW WRITE that has erased its slot. -/
def programming : State := ordered { full with pkg := { full.pkg with image := image } } (writeCmd true)
theorem witness_FW_WRITE_again : AtCommand programming 0x10 (writeCmd true) true ∧ (programming.pkg.image.take (256 + bodyLength programming.pkg.image)) = image ∧
    ∀ i < 256, programming.pkg.flash.getD (slotBytes * (1 - programming.pkg.slot) + i) 0xFF = 0xFF :=
  ⟨atCommand _ _ _ _ (by decide +kernel), by decide +kernel, fun i _ => rfl⟩
def activateCmd (slot : Byte) (began : Bool) : AdminCmd := cmdOf 0x11 [slot] began
theorem flashed_image : (flashed full 5 0).pkg.slotImage 0 = image := by decide +kernel
theorem witness_FW_ACTIVATE : AtCommand (ordered (flashed full 5 0) (activateCmd 0 false)) 0x11 (activateCmd 0 false) false ∧ (activateCmd 0 false).f 8 1 ≤ 1 ∧
    (flashed full 5 0).pkg.verifySlot [] 0 = 1 ∧ (((flashed full 5 0).pkg.bestMarker).map Marker.seq).getD 0 + 1 < 0xFFFFFFFF ∧
    (((flashed full 0xFFFFFFFE 0).pkg.bestMarker).map Marker.seq).getD 0 + 1 = 0xFFFFFFFF := by
  exact ⟨atCommand _ _ _ _ (by decide +kernel), by decide +kernel, slot_good (by decide +kernel) flashed_image rfl rfl, by decide +kernel, by decide +kernel⟩
theorem witness_FW_ACTIVATE_again : AtCommand (ordered (flashed full 5 0) (activateCmd 0 true)) 0x11 (activateCmd 0 true) true ∧
    (flashed full 5 0).pkg.markerTarget = 1 ∧ (List.range 64).all (fun i => (flashed full 5 0).pkg.flash.getD (slotBytes * 1 + areaBytes + i) 0xFF == 0xFF) = true :=
  ⟨atCommand _ _ _ _ (by decide +kernel), by decide +kernel, by decide +kernel⟩
theorem witness_identity : AtCommand (ordered full (cmdOf 0x12 [] false)) 0x12 (cmdOf 0x12 [] false) false ∧
    AtCommand (ordered full (cmdOf 0x13 (natBytes 8 0x6000 ++ List.replicate 32 7) false)) 0x13 (cmdOf 0x13 (natBytes 8 0x6000 ++ List.replicate 32 7) false) false ∧
    AtCommand (ordered full (cmdOf 0x14 (natBytes 8 0x6000) false)) 0x14 (cmdOf 0x14 (natBytes 8 0x6000) false) false ∧
    ∀ x ∈ (ordered full (cmdOf 0x12 [] false)).pkg.cmds, x ≠ cmdOf 0x12 [] false → x.firmware = false :=
  ⟨atCommand _ _ _ _ (by decide +kernel), atCommand _ _ _ _ (by decide +kernel), atCommand _ _ _ _ (by decide +kernel), by decide +kernel⟩

/-! ### The package -/

theorem witness_reset_named : let s := flashed full 5 0
    (s.pkg.bestMarker.map Marker.slot).getD 0 = 0 ∧ ({ s.pkg with badSlots := [] } : Pkg).verifySlot [1] 0 = 1 ∧ ({ s.pkg with badSlots := [] } : Pkg).verifySlot [1] 1 = 6 := by
  exact ⟨by decide +kernel, slot_good (by decide +kernel) (by decide +kernel) rfl rfl, by decide +kernel⟩
theorem witness_reset_other : let s := flashed full 5 1
    (s.pkg.bestMarker.map Marker.slot).getD 0 = 1 ∧ ({ s.pkg with badSlots := [] } : Pkg).verifySlot [1] 1 ≠ 1 ∧ ({ s.pkg with badSlots := [] } : Pkg).verifySlot [1] 0 = 1 := by
  exact ⟨by decide +kernel, by decide +kernel, slot_good (by decide +kernel) (by decide +kernel) rfl rfl⟩
theorem witness_reset_none : ({ State.reset.pkg with badSlots := [] } : Pkg).verifySlot [0, 1] 0 ≠ 1 ∧ ({ State.reset.pkg with badSlots := [] } : Pkg).verifySlot [0, 1] 1 ≠ 1 ∧
    (SMap.sorted [(0, 5), (9, 7)] = true ∧ ∀ c ∈ [(0, 5), (9, 7)], c.1 < 10) := by decide +kernel
/-- Loading, and bringing up or failing to. -/
theorem witness_boot : let s (n : Nat) (ok : Bool) : State :=
      { State.reset with pkg := { State.reset.pkg with stage := n, loading := some ⟨ok, 2, 3, [(0, 5)], [0]⟩ } }
    (s 1 true).pkg.stage = 1 ∧ (s 2 true).pkg.loading = some ⟨true, 2, 3, [(0, 5)], [0]⟩ ∧ (s 2 false).pkg.loading = some ⟨false, 2, 3, [(0, 5)], [0]⟩ :=
  ⟨rfl, rfl, rfl⟩
/-- The recovery window holds the image. -/
def recovering : State := { State.reset with pkg := { State.reset.pkg with stage := 9, rootKey := rootKey, staging := image.zipIdx.map fun x => (x.2, x.1) } }
theorem witness_recovery : recovering.pkg.stage = 9 ∧ verifyImage recovering.pkg.rootKey recovering.pkg.window (2 ^ 26 - 256) recovering.pkg.fuses = 1 := by
  refine ⟨rfl, ?_⟩
  rw [show recovering.pkg.window = image by decide +kernel]
  exact image_good_window
/-- An empty window: 256 zero bytes. -/
theorem witness_recovery_go : ({ State.reset with pkg := { State.reset.pkg with stage := 8 } } : State).pkg.stage = 8 := rfl
theorem witness_recovery_bad : let s : State := { State.reset with pkg := { State.reset.pkg with stage := 9 } }
    verifyImage s.pkg.rootKey s.pkg.window (2 ^ 26 - 256) s.pkg.fuses ≠ 1 := by decide +kernel
theorem witness_caps : (2000 ≤ (2000#32).toNat ∧ (5200#32).toNat ≤ 5200) ∧ (1999#32).toNat < 2000 ∧ 5200 < (5201#32).toNat ∧ 1050 ≤ 1050 ∧ (950 < 951 ∧ 1049 < 1050) ∧ 849 < 850 := by
  decide

/-! ### Host side -/

theorem witness_registers : (∀ off ∈ [0x010000, 0x010110, 0x020040, 0x02007C, 0x200000, 0x20FFFC], off % 4 = 0) ∧ (0x020040 ≤ 0x020040 ∧ 0x02007C < 0x020080) ∧
    (0x200000 ≤ 0x200000 ∧ 0x20FFFC < 0x210000) := by decide
/-- What the device presents in operation, and in recovery. -/
theorem witness_presents : (∀ off ∈ [0x010000, 0x010110, 0x020040, 0x02007C, 0x200000, 0x20FFFC], full.pkg.presents off = true) ∧ full.pkg.powered = true ∧
    full.pkg.stage < 8 ∧ recovering.pkg.presents 0x200000 = false ∧ recovering.ownRow 0x200000 1 = false ∧ 8 ≤ recovering.pkg.stage := by decide +kernel
/-- Recovery control with nothing to recover; the end of the snapshot banks. -/
theorem witness_idle_registers : full.pkg.presents 0x8 = true ∧ full.pkg.stage ≠ 8 ∧ full.pkg.presents 0x020080 = true ∧ (7#32 ≠ 1 ∧ 7#32 ≠ 2) ∧
    full.pkg.presents (0x1000000 + 65536 * snapBanks) = true ∧ recovering.pkg.powered = true := by
  refine ⟨by decide +kernel, by decide +kernel, by decide +kernel, by decide, ?_, rfl⟩
  simp [Pkg.presents, show full.pkg.stage = 3 from rfl]
def armed : State := spaceAs full fun x => { x with armed := true }
theorem witness_trigger : (armed.ctxs.find? 1).any Ctx.armed = true ∧ (∀ y ∈ armed.ctxs, y.2.armed = true → y.1 = 1) ∧ ∀ y ∈ full.ctxs, y.2.armed = false := by decide +kernel
/-- A fabric context descriptor in the staging bytes; one of an address space that is not bound. -/
def staging (space : Nat) : State :=
  { full with pkg := { full.pkg with fabStage := natBytes 4 0 ++ natBytes 2 space ++ natBytes 2 9 ++ natBytes 8 0x90000 ++ natBytes 8 0x91000 ++ natBytes 4 50 ++ natBytes 36 0 } }
theorem witness_fabric_context : (staging 1).pkg.stagedOk = true ∧ ((staging 1).ctxs.find? (fieldAt (staging 1).pkg.staged 4 2)).isSome = true ∧
    (staging 2).ctxs.find? (fieldAt (staging 2).pkg.staged 4 2) = none := by decide +kernel
def exportBytes (valid : Byte) : List Byte := natBytes 2 9 ++ natBytes 2 1 ++ [valid, 0, 0, 0] ++ natBytes 8 0x80000 ++ natBytes 8 0x10000 ++ natBytes 8 0
theorem witness_export : (exportBytes 1).length = 32 ∧ (∃ b ∈ exportBytes 0, b ≠ 0) ∧
    ∀ b ∈ List.replicate 32 (0 : Byte), b = 0 := by decide +kernel
/-- A session of 4096 × 4096 at a rate, in address space 1. -/
def sessionBytes (rate : Nat) : List Byte := natBytes 4 (2 ^ 31) ++ natBytes 2 1 ++ [0, 0] ++ natBytes 2 4096 ++ natBytes 2 4096 ++ natBytes 2 rate ++ natBytes 50 0
theorem witness_session : (∀ r ∈ [30, 60], (sessionBytes r).length = 64 ∧ fld (fieldAt (sessionBytes r) 0 4) 31 1 = 1 ∧ sessionOk (sessionBytes r) = true) ∧
    full.pkg.sessions.find? 3 = none ∧ (∀ e < 8, full.encoderLoad e = 0) ∧ 4096 * 4096 * 30 ≤ 830000000 ∧ 830000000 < 4096 * 4096 * 60 := by decide +kernel
def sessionOpen : State := { full with pkg := { full.pkg with sessions := [(3, ⟨sessionBytes 30, 12, 0, true, 1, 0, 5⟩)] } }
/-- Words of an entry that the host may write, and may not: of a session that is open, or closing. -/
theorem witness_session_words : (sessionOpen.pkg.session 3).entry.length = 64 ∧ (sessionOpen.pkg.session 3).status = 0 ∧ (sessionOpen.pkg.session 3).valid = true ∧
    (24 ≤ 24 ∧ 60 < 64) ∧ 20 < 24 ∧ (full.pkg.session 255).entry.length = 64 ∧ (full.pkg.session 255).status ≠ 3 ∧ (full.pkg.session 255).valid = false ∧
    (({ sessionOpen.pkg with sessions := [(3, ⟨sessionBytes 30, 12, 3, false, 1, 0, 5⟩)] } : Pkg).session 3).status = 3 := by decide +kernel
theorem witness_session_close : (sessionOpen.pkg.sessions.find? 3).any (fun x => x.valid && x.status == 0) = true ∧
    ∀ c, sessionOpen.ectxs.find? 12 = some c → c.pend = [] := ⟨by decide +kernel, by intro c h; cases h⟩
theorem witness_links : (0 ∈ setInsert ([] : List Nat) 0) ∧ ((SMap.find? [(4, 2 ^ 34)] 4 : Option Nat)).isSome = true := by decide

/-! ### Pages, errors, messages -/

/-- Page 0x80000 of the bench in a leaf table at 0xC0000, its frame 8, used far more by die 1. -/
def migrating (tier : Nat) : State :=
  let s := (plain.store 131072 (natBytes 8 (1 + 0xC0000))).store (0xC0000 + 8 * 8) (natBytes 8 (15 + 8 * 65536 + tier * 2 ^ 52))
  { s with ctxs := s.ctxs.modify 1 fun x => { x with policy := ⟨8, 2, 0⟩ }
           counts := if tier = 0 then [(8 * 8 + 1, 9)] else [((tierOneKey / 65536 + 8) * 8 + 1, 9)]
           pkg := { s.pkg with cxl := [(0, 2 ^ 34)] }, ev := .page 1 0x80000 1 (2 ^ 22) }
theorem witness_migrate : let s := migrating 0
    let e := s.nat (0xC0000 + 64) 8
    s.entryOf 1 0x80000 = some (0xC0000 + 64) ∧ s.translate 1 0x80000 .read true = .hit 0x80000 ∧ pteBad e = false ∧ fld e 1 1 = 1 ∧ fld e 5 1 = 0 ∧
      s.mayMigrate 1 8 (s.homeDie 0x80000) 1 = true ∧ fld e 52 4 = 0 ∧ 2 ^ 22 * 65536 / 2 ^ 38 = 1 ∧ s.frameFree (2 ^ 22) = true ∧
      s.mappers (fld e 16 36) = [0xC0000 + 64] ∧ s.tables.contains (fld e 16 36 * 65536) = false ∧ s.blockInUse (fld e 16 36) = false ∧
      s.agrees (s.store (0xC0000 + 64) (natBytes 8 (e - fld e 16 36 * 65536 + 2 ^ 22 * 65536))) = true := by decide +kernel
theorem witness_migrate_home : let s := migrating 1
    let e := s.nat (0xC0000 + 64) 8
    s.entryOf 1 0x80000 = some (0xC0000 + 64) ∧ fld e 52 4 = 1 ∧ ∃ key, s.translate 1 0x80000 .read true = .hit key ∧ pteBad e = false ∧ fld e 1 1 = 1 ∧
      fld e 5 1 = 0 ∧ s.mayMigrate 1 (key / 65536) (s.homeDie key) 1 = true := by
  refine ⟨by decide +kernel, by decide +kernel, tierOneKey + 0x80000, by decide +kernel⟩
theorem witness_errors : ((groupIn full).v.find? 3).isSome = true ∧ full.group? 0 0 = some (groupIn full) ∧ full.teams.find? 0 = some (teamIn full) ∧
    (teamIn full).core = 0 ∧ (teamIn full).cause = none ∧ (teamIn full).st = .running ∧ SMap.sorted full.counts = true ∧ 5 / 8 ∉ full.latent ∧ 5 < hostKey := by
  decide +kernel
/-- A word of each array outside memory; in each of them one has a single-bit error already. -/
theorem witness_flips : ∀ l ∈ [ErrLoc.vreg 0 0 1 3, .sreg 0 0 1, .pad 0 1, .tile 0 0 3, .weight 0 1 3, .tail 1 1 3],
    ErrLoc.word l ∉ full.flips ∧ ErrLoc.word l ∈ ({ full with flips := [ErrLoc.word l] } : State).flips := by decide +kernel
/-- Two messages in a link's buffer, one in its queue or none. -/
def linked (q : List Nat) : State := { full with ev := .link 3 false, pkg := { full.pkg with links := [(3, ⟨14, [5, 6], q, 16, [], []⟩)] } }
theorem witness_link : ∀ q ∈ [[], [7]], ((linked q).link 3).bufDown = [5, 6] ∧ ((linked q).link 3).queueDown = q := by decide +kernel

end Sys2Proof.Tests
end

