-- ==== Sys2Proof/Tests/Slice0.lean ====
section
/-! SUPPORT. Tests. Words are laid out by hand from the encodings of R58, R59, R71 to R77, R160 and R183 (the opcode table's match and field
places), or are the manual's own examples; results are worked out from the rules named. -/
namespace Sys2Proof.Tests

-- One theorem at a time: each evaluation that waits for the kernel holds a thread of its own.
set_option Elab.async false

open Sys2Proof Sys2Proof.Machine

/-! ### Ill-formed instructions (R60, R72 to R77, R160, R183): one for each check -/

theorem test_ill_formed_1 : ([.iadd64 53 8 30 false true false,
    .iadd64 8 7 26 true true true,
    .iadd64 10 22 19 false false false,
    .isub64 19 12 46 false false,
    .isub64 20 21 16 false false,
    .isub64 16 2 1 false false,
    .ffma 18 60 15 false true 7,
    .fnma 25 57 17 true false 6,
    .imadw 9 27 38 false false,
    .icmp 7 13 55 true true 2 3,
    .icmp 1 48 36 false true 0 7,
    .icmpn 7 9 57 true true 1 3,
    .icmpn 2 62 57 true true 1 6,
    .fcmp 7 30 31 false true 2 0,
    .fcmp 4 37 13 true false 1 7] : List Instr).all (fun i => !i.wellFormed) = true := by decide

theorem test_ill_formed_2 : ([.testb 7 59 49 true true 3,
    .plog 7 3 2 3 1,
    .shup 44 26 63 false true,
    .shdn 10 37 63 true true,
    .bfly 6 27 63 true true,
    .perm 20 38 10 false false,
    .bcastl 58 30 63 false true,
    .ldg64 29 43 13 true 19,
    .ldg128 62 2 3 true 26,
    .stg64 27 10 11 true 29,
    .stg128 23 56 13 false 7,
    .ldp64 27 5 12 false 24,
    .ldp128 34 42 4 true 10,
    .stp64 13 31 14 true 22,
    .stp128 9 42 14 true 18] : List Instr).all (fun i => !i.wellFormed) = true := by decide

theorem test_ill_formed_3 : ([.atomg 46 39 12 false 31,
    .atomg 27 57 2 false 12,
    .redg 40 15 9 false 26,
    .redg 29 61 5 false 11,
    .redg 61 20 10 true 12,
    .atomp 34 27 10 true 16,
    .atomp 7 49 14 true 12,
    .lda32 33 20 3 true 6,
    .lda64 49 22 10 false 5,
    .lda64 26 58 3 true 7,
    .stl32 15 34 10 true 6,
    .stl64 3 8 13 false 4,
    .stl64 30 45 7 false 7,
    .ldf32 4 23 false 16,
    .stf32 57 31 false 11] : List Instr).all (fun i => !i.wellFormed) = true := by decide

theorem test_ill_formed_4 : ([.guard 4 true 0xE8EFC46D,
    .guard 5 true 0x78E41367,
    .sadd64 41 42 16,
    .sadd64 12 25 30,
    .sadd64 6 48 59,
    .callL 29 0xF4CC894C,
    .call 33 115455,
    .brx 11,
    .bvote 3 4 91185,
    .bar 47 false 3,
    .bara 63 false 11,
    .barw true 10,
    .fence 0 6,
    .waitm 5 63 483,
    .talloc 8 7] : List Instr).all (fun i => !i.wellFormed) = true := by decide

theorem test_ill_formed_5 : ([.mmas 23 31 28 false 0,
    .tscale 3 18 14 true,
    .tew 5 30 9 true 3 12,
    .tarv 5 0,
    .tarv 28 54,
    .tstat 16 63,
    .cpy 5 55 24 0,
    .cpy 2 28 39 6,
    .cpy 7 54 60 3,
    .tld 1 43 2 10,
    .tld 15 62 12 25,
    .tst 10 19 6 24,
    .tst 7 62 21 58,
    .wbld 1 39 16 0 3 true,
    .gath 8 11 14 0 false] : List Instr).all (fun i => !i.wellFormed) = true := by decide

theorem test_ill_formed_6 : ([.gath 13 40 30 2 true,
    .gath 3 62 5 0 false,
    .sigf 4 43 58 22,
    .sigf 15 20 33 46,
    .sigf 15 58 26 61,
    .cpyf 4 15 58 1,
    .cpyf 15 28 9 7,
    .cpyf 13 52 34 4,
    .mcst 13 33 63,
    .mcst 3 62 61,
    .coll 2 9 1,
    .coll 10 52 3,
    .coll 13 62 2,
    .enc 12 47 25,
    .batch 7 3] : List Instr).all (fun i => !i.wellFormed) = true := by decide

theorem test_ill_formed_7 : ([.qmov 8 22 15 0,
    .pagein 2 53,
    .pagein 7 62,
    .rstepBegin 27 16,
    .rstepBegin 22 33,
    .rstepBegin 6 62,
    .rstepEnd 41,
    .rwiden 11 2,
    .rwiden 26 0,
    .rwiden 32 58,
    .rnarrow 19 4,
    .rnarrow 50 0,
    .rnarrow 58 40,
    .rview 3 8,
    .rview 18 35] : List Instr).all (fun i => !i.wellFormed) = true := by decide

theorem test_ill_formed_8 : ([.rview 36 60,
    .rpub 9 5 23,
    .rpub 6 58 31,
    .kvalloc 11 50,
    .kvalloc 62 6,
    .kvrel 15 33,
    .kvrel 1 62,
    .kvapp 4 13 9,
    .kvapp 12 44 31,
    .kvapp 11 62 22,
    .kvappMem 3 13,
    .kvappMem 1 62,
    .kvflush 13 11] : List Instr).all (fun i => !i.wellFormed) = true := by decide


/-! ### Every constructor's word decodes to it -/

/-- The pair of words decodes to the instruction. -/
def reads (x : (Nat × Nat) × Instr) : Bool := match decodeWord x.1.1 x.1.2 with
  | .ok j => j == x.2
  | .error _ => false

theorem test_words_1 : [((0x00129BBC, 0), Instr.iadd 37 13 55 true false false),
    ((0x0031F8A9, 0), .isub 35 60 21 false false true),
    ((0x405B1A53, 0), .imul 54 13 10 false true true),
    ((0x407E2E54, 0), .imuln 60 23 10 true false false),
    ((0x409A7687, 0), .imin 52 59 16 true true true),
    ((0x00ABAA2C, 0), .imax 23 21 5 true false false),
    ((0x40CBE0A8, 0), .and 23 48 21 false false),
    ((0x00FC1DD8, 0), .or 56 14 59 false false),
    ((0x411754E2, 0), .xor 46 42 28 false true),
    ((0x413C3CC4, 0), .andn 56 30 24 true false),
    ((0x014422E0, 0), .shl 8 17 28 false false),
    ((0x01652315, 0), .shr 10 17 34 true false true),
    ((0x418FCA3C, 0), .rot 31 37 7 true false),
    ((0x01B80A8E, 0), .bfx 48 5 17 true true false),
    ((0x01CB7D8F, 0), .idivn 22 62 49 true true true)].all reads = true := by decide +kernel

theorem test_words_2 : [((0x41EDB524, 0), Instr.fadd 27 26 36 true false),
    ((0x4211E96C, 0), .fsub 35 52 45 true false),
    ((0x0237CAA4, 0), .fmul 47 37 20 true false),
    ((0x424FC399, 0), .fmin 31 33 51 false false true),
    ((0x427650BD, 0), .fmax 44 40 23 true false true),
    ((0x0289EBC2, 0), .hadd2 19 53 56 false true),
    ((0x02A6CE24, 0), .hsub2 13 39 4 true false),
    ((0x42DAD584, 0), .hmul2 53 42 48 true false),
    ((0x02F7734A, 0), .hmin2 46 57 41 false true),
    ((0x031EB210, 0), .hmax2 61 25 2 false false),
    ((0x4322F3B5, 0), .pack2 5 57 54 true false true),
    ((0x435A10B3, 0), .iadd64 52 8 22 false true true),
    ((0x436948F0, 0), .isub64 18 36 30 false false),
    ((0x438DE99E, 0), .fdiv 27 52 51 true true),
    ((0x481B4904, 0), .movi 27 18692)].all reads = true := by decide +kernel

theorem test_words_3 : [((0x0869BBA8, 0), Instr.movhi 41 48040),
    ((0x48B6BD7E, 0), .iaddi 54 48510),
    ((0x48DC47FB, 0), .imuli 28 18427),
    ((0x0923D56C, 0), .andi 35 54636),
    ((0x495D62AE, 0), .ori 29 25262),
    ((0x0990CCD1, 0), .xori 16 52433),
    ((0x09EF000E, 0), .shli 47 14),
    ((0x4A1C001A, 0), .shri 28 26),
    ((0x0A55000B, 0), .shrai 21 11),
    ((0x0A95DFB5, 0), .faddi 21 57269),
    ((0x0AC768FA, 0), .fmuli 7 26874),
    ((0x4B28EA1D, 0), .fmovi 40 59933),
    ((0x0B45BC70, 0), .hadd2i 5 48240),
    ((0x4BB45377, 0), .hmul2i 52 21367),
    ((0x0BF5DDA6, 0), .hmovi2 53 56742)].all reads = true := by decide +kernel

theorem test_words_4 : [((0x4C034EE6, 0), Instr.qmovi4 3 20198),
    ((0x0C5F5076, 0), .fmini 31 20598),
    ((0x4CBB405F, 0), .fmaxi 59 16479),
    ((0x106FAD44, 0), .ffma 55 53 42 false false 4),
    ((0x50AD3C41, 0), .fnma 22 39 34 false false 1),
    ((0x114302C8, 0), .hfma2 33 32 22 false true),
    ((0x11EA87D0, 0), .imad 53 16 62 true false false),
    ((0x12651768, 0), .dot4 50 34 59 false true),
    ((0x12DAE768, 0), .dot8 45 28 59 false true),
    ((0x131829F8, 0), .dot2h 12 5 15 true true),
    ((0x53FF2D30, 0), .bfi 63 37 41 true false),
    ((0x14650CF0, 0), .permb 50 33 39 true false),
    ((0x149DAD96, 0), .sel 14 53 44 true false 6),
    ((0x156AE870, 0), .fclamp 53 29 3 true false),
    ((0x15E83EA0, 0), .imadw 52 7 53 false false)].all reads = true := by decide +kernel

theorem test_words_5 : [((0x20182C00, 0), Instr.mov 48 22 false),
    ((0x20366500, 0), .fabs 44 50 true),
    ((0x6056C900, 0), .fneg 45 36 true),
    ((0x607F4100, 0), .ineg 62 32 true),
    ((0x608C7000, 0), .not 24 56 false),
    ((0x20A79700, 0), .popc 15 11 true),
    ((0x60C31C00, 0), .clz 6 14 false),
    ((0x20F19600, 0), .brev 35 11 false),
    ((0x211E1100, 0), .frcp 60 8 true),
    ((0x613D9600, 0), .frsq 59 11 false),
    ((0x615CDF00, 0), .fsqrt 57 47 true),
    ((0x21674600, 0), .fexp2 14 35 false),
    ((0x218DE500, 0), .flog2 27 50 true),
    ((0x61B5EF00, 0), .fsin 43 55 true),
    ((0x21AADF01, 0), .fcos 21 47 true)].all reads = true := by decide +kernel

theorem test_words_6 : [((0x21D1C200, 0), Instr.ftanh 35 33 false),
    ((0x61E4EF00, 0), .ftoi 9 55 true),
    ((0x2207F300, 0), .itof 15 57 true),
    ((0x2231F101, 0), .fcvt 35 56 true true),
    ((0x62534801, 0), .hcvt 38 36 false true),
    ((0x2270B102, 0), .qcvt 33 24 true 2),
    ((0x22978201, 0), .qunp 47 1 false 1),
    ((0x22A1B105, 0), .q4cvt 3 24 true 5),
    ((0x22DE3707, 0), .q4unp 60 27 true 7),
    ((0x22E2F900, 0), .frnd 5 60 true 0),
    ((0x231A1400, 0), .fclass 52 10 false),
    ((0x63340000, 0), .laneid 40),
    ((0x281D5895, 0), .icmp 3 42 49 false false 2 5),
    ((0x285E24F3, 0), .icmpn 3 49 9 true true 2 3),
    ((0x6888AAF4, 0), .fcmp 1 5 21 true true 2 4)].all reads = true := by decide +kernel

theorem test_words_7 : [((0x68F7F9B0, 0), Instr.testb 6 63 51 false true 2),
    ((0x691A2090, 0), .plog 3 1 1 1 2),
    ((0x70352CE7, 0), .scan 53 11 14 false 7),
    ((0x7042DE74, 0), .scanx 2 55 39 false 4),
    ((0x7080C6F5, 0), .reduce 49 47 false 5),
    ((0x70F93E08, 0), .prevLane 57 15 32 true),
    ((0x31349B78, 0), .nextLane 52 38 55 true),
    ((0x715FF680, 0), .shup 31 61 40 false false),
    ((0x71A24940, 0), .shdn 34 18 20 false false),
    ((0x31F4CC90, 0), .bfly 52 51 9 false false),
    ((0x3207903C, 0), .perm 7 36 3 true true),
    ((0x327EDDB8, 0), .bcastl 62 55 27 true false),
    ((0x32801C90, 0), .vote 7 9),
    ((0x32EEF7F0, 0), .matchEq 46 61 63 false),
    ((0x732702D0, 0), .gets 39 45)].all reads = true := by decide +kernel

theorem test_words_8 : [((0x73407668, 0), Instr.puts 29 38 true),
    ((0x5835D968, 0), .ldg8n 53 54 5 true 8),
    ((0x587D2CCF, 0), .ldg8i 61 11 3 false 15),
    ((0x1895F064, 0), .ldg16n 21 60 1 true 4),
    ((0x18C5447C, 0), .ldg16i 5 17 1 true 28),
    ((0x592B4325, 0), .ldg32 43 16 12 true 5),
    ((0x595CD710, 0), .ldg64 28 53 12 false 16),
    ((0x59A0F107, 0), .ldg128 32 60 4 false 7),
    ((0x59CE9F14, 0), .stg8 14 39 12 false 20),
    ((0x1A37FB51, 0), .stg16 55 62 13 false 17),
    ((0x1A64B950, 0), .stg32 36 46 5 false 16),
    ((0x1A88366A, 0), .stg64 8 13 9 true 10),
    ((0x1AF8FD2F, 0), .stg128 56 63 4 true 15),
    ((0x5B10B64A, 0), .ldp32 16 45 9 false 10),
    ((0x5B4E21EF, 0), .ldp64 14 8 7 true 15)].all reads = true := by decide +kernel

theorem test_words_9 : [((0x5B90F282, 0), Instr.ldp128 16 60 10 false 2),
    ((0x5BF930B5, 0), .stp32 57 12 2 true 21),
    ((0x1C360F1F, 0), .stp64 54 3 12 false 31),
    ((0x5C547D36, 0), .stp128 20 31 4 true 22),
    ((0x5C9ED72D, 0), .atomg 30 53 12 true 13),
    ((0x1CE45A46, 0), .redg 36 22 9 false 6),
    ((0x5D37AFA9, 0), .atomp 55 43 14 true 9),
    ((0x5D4070E7, 0), .prefg 28 3 true 7),
    ((0x5DAC84A5, 0), .lda32 44 33 2 true 5),
    ((0x1DCAE5A2, 0), .lda64 10 57 6 true 2),
    ((0x1E34E2E5, 0), .stl32 52 56 11 true 5),
    ((0x1E4E07E4, 0), .stl64 14 1 15 true 4),
    ((0x5E9B7018, 0), .ldf32 27 28 false 24),
    ((0x5EEC3825, 0), .stf32 44 14 true 5),
    ((0x3A800000, 0x01428C38), .guard 2 true 0x1428C38)].all reads = true := by decide +kernel

theorem test_words_10 : [((0x80031660, 0), Instr.sadd 6 11 12),
    ((0xC02D72E0, 0), .ssub 26 57 28),
    ((0xC047E258, 0), .smul 15 49 11),
    ((0xC0743B79, 0), .smulh 40 29 47 true),
    ((0x808C4D29, 0), .smin 24 38 37 true),
    ((0x80A2A9C1, 0), .smax 5 20 56 true),
    ((0x80C98780, 0), .sand 19 3 48),
    ((0x80E90E40, 0), .sor 18 7 8),
    ((0xC115A458, 0), .sxor 43 18 11),
    ((0xC13C13B8, 0), .sshl 56 9 55),
    ((0x814FE610, 0), .sshr 31 51 2),
    ((0xC16EC688, 0), .sshra 29 35 17),
    ((0x81854910, 0), .sadd64 10 36 34),
    ((0x81B25353, 0), .scmp 36 41 42 3),
    ((0x81C6B588, 0), .sfadd 13 26 49)].all reads = true := by decide +kernel

theorem test_words_11 : [((0x81EC7108, 0), Instr.sfmul 24 56 33),
    ((0x820E9FD0, 0), .sdivn 29 15 58),
    ((0x823BD800, 0), .spopc 55 44),
    ((0x825A0E00, 0), .sff1 52 7),
    ((0xC831A54D, 0), .smovi 49 42317),
    ((0x887987F6, 0), .smovhi 57 34806),
    ((0x888AFE0B, 0), .saddi 10 65035),
    ((0x88DEE55D, 0), .sandi 30 58717),
    ((0x890C2C19, 0), .sori 12 11289),
    ((0x894ACB8B, 0), .sxori 10 52107),
    ((0x89860002, 0), .sshli 6 2),
    ((0x89DA0015, 0), .sshri 26 21),
    ((0x8A37DA24, 0), .smuli 55 55844),
    ((0xF00B0000, 0xB6B36DA0), .smov32 11 0xB6B36DA0),
    ((0xF0400000, 0xC860E0CA), .braL 0xC860E0CA)].all reads = true := by decide +kernel

theorem test_words_12 : [((0xB0A20000, 0x594030BC), Instr.callL 34 0x594030BC),
    ((0xB0CF0000, 0x9074B6D8), .sadd32 15 0x9074B6D8),
    ((0x900040CC, 0), .bra 16588),
    ((0xD09AE02F, 0), .bz 13 57391),
    ((0x9164EEC0, 0), .bnz 50 61120),
    ((0x91A9B779, 0), .call 20 112505),
    ((0x920C0000, 0), .brx 6),
    ((0x9285DFC4, 0), .bdiv 2 122820),
    ((0x933B0437, 0), .bidx 29 66615),
    ((0xD3804BA8, 0), .jset 19368),
    ((0xD49A18FD, 0), .bvote 1 5 6397),
    ((0x960000AE, 0), .trap 174),
    ((0xA8004003, 0), .bar 32 false 3),
    ((0xA8200204, 0), .bara 1 false 4),
    ((0xA840000F, 0), .barw false 15)].all reads = true := by decide +kernel

theorem test_words_13 : [((0xE8600008, 0), Instr.fence 1 0),
    ((0xE8882F2B, 0), .waitm 16 23 299),
    ((0xA8C001F1, 0), .sleep 497),
    ((0xE8FE0088, 0), .getsr 60 136),
    ((0xE91D807A, 0), .setsr 59 122),
    ((0xE93D8000, 0), .fmtw 59),
    ((0xA9200104, 0), .fmtwRm 4),
    ((0xE9400007, 0), .hclaim 7),
    ((0xA9600002, 0), .hrel 2),
    ((0xE99A800F, 0), .hwr 53 15),
    ((0xE9B88007, 0), .hrd 49 7),
    ((0xAA0000FC, 0), .syscall 252),
    ((0x98200000, 0), .talloc 16 0),
    ((0xD8520000, 0), .tfree 9),
    ((0x9881C011, 0), .tgive 28 17)].all reads = true := by decide +kernel

theorem test_words_14 : [((0xD8FC0004, 0), Instr.ttake 30 4),
    ((0xD91A0000, 0), .tzero 13),
    ((0xD9566562, 0), .mma 11 6 10 true true 2),
    ((0xD9B08F80, 0), .mmas 24 8 31 false 0),
    ((0xD9E7A580, 0), .tcomp 19 26 11),
    ((0x9A0EC482, 0), .tsoft 7 12 9 false 2),
    ((0x9A4D6200, 0), .tscale 6 22 4 false),
    ((0xDA93EA00, 0), .tnorm 9 30 20),
    ((0xDAFD4000, 0), .trowred 30 20 0),
    ((0x9B391C93, 0), .tew 28 17 25 false 1 3),
    ((0x9B409621, 0), .ttov 9 12 33),
    ((0x9BAA050E, 0), .vtot 21 10 14),
    ((0xDBC08015, 0), .tarv 8 21),
    ((0x9C001004, 0), .tawt 1 4),
    ((0xDC40200E, 0), .tstat 2 14)].all reads = true := by decide +kernel

theorem test_words_15 : [((0xDC825C00, 0), Instr.sigq 1 5 24),
    ((0xE010A643, 0), .cpy 4 10 25 3),
    ((0xE07A01F4, 0), .tld 14 32 7 52),
    ((0xE0B4E639, 0), .tst 13 14 24 57),
    ((0xE0D5A70D, 0), .wbld 5 26 28 1 2 true),
    ((0xA122A047, 0), .gath 8 42 1 3 true),
    ((0xE1478C19, 0), .sigf 1 56 48 25),
    ((0xA185E900, 0), .cpyf 1 30 36 0),
    ((0xA1D22500, 0), .mcst 4 34 20),
    ((0xA23EE001, 0), .coll 15 46 1),
    ((0xE25602C0, 0), .enc 5 32 11),
    ((0xA2840002, 0), .batch 1 2),
    ((0xE2C4002B, 0), .waittl 1 43),
    ((0xE3372037, 0), .testtl 13 50 55),
    ((0xA34C0000, 0), .cancel 3)].all reads = true := by decide +kernel

theorem test_words_16 : [((0xE3A62000, 0), Instr.qmov 9 34 0 0),
    ((0xE3CAE000, 0), .pagein 2 46),
    ((0xA403E280, 0), .rstepBegin 62 10),
    ((0xA400C001, 0), .rstepEnd 12),
    ((0xE4428007, 0), .rwiden 40 7),
    ((0xA4812007, 0), .rnarrow 18 7),
    ((0xA4C0A180, 0), .rview 10 6),
    ((0xE52D20C0, 0), .rpub 11 18 3),
    ((0xA5402380, 0), .kvalloc 2 14),
    ((0xE5B08000, 0), .kvrel 12 8),
    ((0xE5E9E040, 0), .kvapp 10 30 1),
    ((0xE5FF0001, 0), .kvappMem 15 48),
    ((0xE63BA000, 0), .kvflush 14 58),
    ((0x94000000, 0), .join),
    ((0x95000000, 0), .exit)].all reads = true := by decide +kernel

theorem test_words_17 : [((0x95800000, 0), Instr.joint),
    ((0xD6800000, 0), .bkpt),
    ((0xE8A00000, 0), .yield),
    ((0xE9C00000, 0), .snap),
    ((0xE9E00000, 0), .resume)].all reads = true := by decide +kernel


/-- The manual's own examples of words (R62 to R189), as its files 03 to 07 write them. -/
theorem test_manual_words_lane : [((0x4001000B, 0), Instr.iadd 2 0 1 false true true), ((0x100C1062, 0), .ffma 6 2 3 false false 2), ((0x14821064, 0), .sel 1 2 3 false false 4),
    ((0x21A18401, 0), .fcos 3 2 false), ((0x22628202, 0), .qcvt 5 1 false 2), ((0x28084192, 0), .icmp 1 2 3 false false 2 2), ((0x291E2100, 0), .plog 3 3 1 2 0),
    ((0x19010040, 0), .ldg32 1 0 1 false 0), ((0x1A4408C2, 0), .stg32 4 2 3 false 2), ((0x1BC71821, 0), .stp32 7 6 0 true 1), ((0x1C850500, 0), .atomg 5 1 4 false 0),
    ((0x1D04240C, 0), .atomp 4 9 0 false 12), ((0x1D400482, 0), .prefg 1 2 false 2), ((0x1D820C84, 0), .lda32 2 3 2 false 4)].all reads = true := by decide +kernel
theorem test_manual_words_group : [((0x81A3041A, 0), Instr.scmp 6 2 3 2), ((0xB0040000, 0x12345678), .smov32 4 0x12345678), ((0xA8000002, 0), .bar 0 false 2), ((0xA8000900, 0), .bar 4 true 0),
    ((0xA860000C, 0), .fence 1 4), ((0xA8841410, 0), .waitm 8 10 16), ((0xA8E38012, 0), .getsr 7 0x12), ((0xA904800A, 0), .setsr 9 0x0A), ((0xA9200101, 0), .fmtwRm 1),
    ((0xA9400003, 0), .hclaim 3), ((0xA9820003, 0), .hwr 4 3), ((0xA9A28003, 0), .hrd 5 3), ((0x96000021, 0), .trap 0x21), ((0x99401100, 0), .mma 0 1 2 false false 0),
    ((0xA0404040, 0), .tld 0 4 1 0), ((0xA300_9000, 0), .testtl 0 9 0)].all reads = true := by decide +kernel
/-- R64: reserved formats, opcodes and fields are no instruction; a GUARD before a word that is no lane word neither. -/
theorem test_reserved_words : [(0xB8000000, 0), (0x97000000, 0), (0xA6400000, 0), (0xAA200000, 0), (0x82600000, 0), (0x92000001, 0), (0x28380000, 0), (0x81808000, 0), (0xA8004200, 0),
    (0x78000000, 0), (0x38000001, 0), (0x38000000, 0x38000000), (0x38000000, 0xA8000002)].all (fun p => match decodeWord p.1 p.2 with
    | .ok _ => false
    | .error _ => true) = true := by decide +kernel

/-! ### Results, on one lane or register -/

/-- Lane k of a vector register after an instruction. -/
def laneAfter (i : Instr) (g : Group → Group) (n k : Nat) : Option Word := match exec i (bench g) with
  | .next t => (t.group? 0 0).map fun G => laneIn G.v n k
  | _ => none
/-- An s register after an instruction. -/
def wordAfter (i : Instr) (g : Group → Group) (n : Nat) : Option Word := match exec i (bench g) with
  | .next t => (t.group? 0 0).map fun G => G.sreg n
  | _ => none
/-- The issuing split's PC after an instruction. -/
def pcAfter (i : Instr) (g : Group → Group) : Option Dword := match exec i (bench g) with
  | .next t => (t.split? 0 0 0).map Split.pc
  | _ => none
def two (x y : Word) (g : Group) : Group := withV 1 x (withV 2 y g)

/-- R83: sums wrap, or clamp. -/
theorem test_iadd : laneAfter (.iadd 3 1 2 false false false) (two 0xFFFFFFFF 2) 3 31 = some 1 ∧
    laneAfter (.iadd 3 1 2 false false true) (two 0x7FFFFFFF 1) 3 0 = some 0x7FFFFFFF := by decide +kernel
/-- R83: products' high words, signed and unsigned. -/
theorem test_imul_hi : laneAfter (.imul 3 1 2 false false true) (two 0xFFFFFFFF 2) 3 5 = some 0xFFFFFFFF ∧
    laneAfter (.imuln 3 1 2 false false true) (two 0xFFFFFFFF 2) 3 5 = some 1 := by decide +kernel
/-- R83: minima, signed and unsigned. -/
theorem test_imin : laneAfter (.imin 3 1 2 false false false) (two 0x80000000 1) 3 0 = some 0x80000000 ∧
    laneAfter (.imin 3 1 2 false false true) (two 0x80000000 1) 3 0 = some 1 := by decide +kernel
/-- R83: shifts by 32 and more, and a rotation by 33. -/
theorem test_shifts : laneAfter (.shl 3 1 2 false false) (two 1 32) 3 0 = some 0 ∧ laneAfter (.shr 3 1 2 false false true) (two 0x80000000 99) 3 0 = some 0xFFFFFFFF ∧
    laneAfter (.rot 3 1 2 false false) (two 0x80000001 33) 3 0 = some 3 := by decide +kernel
/-- R84: a field of 4 bits from bit 8, signed; a length of 0. -/
theorem test_bfx : laneAfter (.bfx 3 1 2 false false true) (two 0xF00 0x408) 3 0 = some 0xFFFFFFFF ∧ laneAfter (.bfx 3 1 2 false false true) (two 0xF00 0x008) 3 0 = some 0 := by
  decide +kernel
/-- R47, R87: 1 + 2^−24 is halfway and rounds to even; 1 + 3·2^−24 rounds up. -/
theorem test_fadd : laneAfter (.fadd 3 1 2 false false) (two 0x3F800000 0x33800000) 3 0 = some 0x3F800000 ∧
    laneAfter (.fadd 3 1 2 false false) (two 0x3F800000 0x34400000) 3 0 = some 0x3F800002 := by decide +kernel
/-- R90: (1 + 2^−23)² − (1 + 2^−22) = 2^−46, kept by the one rounding; R49: ∞ − ∞ is the default NaN. -/
theorem test_ffma : laneAfter (.ffma 3 1 2 false false 1) (fun g => withV 3 0xBF800002 (two 0x3F800001 0x3F800001 g)) 3 0 = some 0x28800000 ∧
    laneAfter (.fadd 3 1 2 false false) (two 0x7F800000 0xFF800000) 3 0 = some 0x7FC00000 := by decide +kernel
/-- R99: a scan of ones from 10, and the sum of 32 lanes. -/
theorem test_scan : laneAfter (.scan 3 1 4 false 0) (fun g => withS 4 10 (two 1 0 g)) 3 6 = some 17 ∧
    wordAfter (.reduce 1 4 false 0) (fun g => withS 4 10 (two 1 0 g)) 4 = some 42 := by decide +kernel
/-- R92: SEL takes the first source where the predicate is 1. -/
theorem test_sel : laneAfter (.sel 3 1 2 false false 1) (fun g => withP 1 1 (two 7 8 g)) 3 0 = some 7 ∧
    laneAfter (.sel 3 1 2 false false 1) (fun g => withP 1 1 (two 7 8 g)) 3 1 = some 8 := by decide +kernel
/-- R14, R21: lanes that are off keep the destination's value. -/
theorem test_inactive_lane : (match exec (.iadd 3 1 2 false false false) (bench fun g => withV 3 9 (two 1 1 (g.modSplit 0 fun e => { e with act := 1 }))) with
    | .next t => (t.group? 0 0).map fun G => (laneIn G.v 3 0, laneIn G.v 3 1)
    | _ => none) = some (2, 9) := by decide +kernel
/-- R112: BZ goes to PC + 4 + 4 × off where the register is 0, and on where it is not; R113: CALL's link. -/
theorem test_transfers : pcAfter (.bz 1 0x1FFFF) (withS 1 0) = some 0x40000 ∧ pcAfter (.bz 1 5) (withS 1 1) = some 0x40004 ∧ pcAfter (.call 2 5) id = some 0x40018 ∧
    wordAfter (.call 2 5) id 2 = some 0x40004 := by decide +kernel
/-- R107: group sums wrap. -/
theorem test_sadd : wordAfter (.sadd 3 1 2) (fun g => withS 1 0xFFFFFFFF (withS 2 2 g)) 3 = some 1 := by decide +kernel
/-- R119: TRAP halts its team, FPC is its address and its code the detail of FCAUSE. -/
theorem test_trap : (match exec (.trap 0x21) (bench id) with
    | .next t => (t.group? 0 0).map fun G => (G.fr.fpc, G.fr.fcause.toNat / 256 % 256, G.fr.flt)
    | _ => none) = some (0x40000, 0x21, 0xFFFFFFFF) := by decide +kernel

end Sys2Proof.Tests
end

