-- ==== Sys2Proof/Tests/WordWitness.lean ====
section
/-! SUPPORT. States and operands that meet the premises of the statements about the machine as a whole and about lane words. -/
namespace Sys2Proof.Tests

-- One theorem at a time: each evaluation that waits for the kernel holds a thread of its own.
set_option Elab.async false

open Sys2Proof Sys2Proof.Machine

/-! ### The machine as a whole -/

theorem witness_StepKeepsMemoryForm : plain.wf ∧ ∃ t, step plain = .next t := ⟨by unfold State.wf; decide, _, rfl⟩

theorem witness_WithoutPower :
    let s : State := { plain with pkg := { plain.pkg with powered := false } }
    s.pkg.powered = false ∧ ∀ a, s.agenda.head? ≠ some (.event .packageReset a) := ⟨rfl, by intro a; simp [plain, bench, State.withProgram, State.store]⟩

/-- The bench with words as its program. -/
def running (ws : List Nat) : State := State.reset.withProgram (ws.flatMap (natBytes 4))

/-- The state in which step looks at the first word of a program, with what it takes the word for. -/
def fetching (ws : List Nat) (len : Nat) (m : Bool) (i : Instr) : State :=
  match (running ws).flushPosted.arbiter false with
  | some (k, r) =>
    { r with ownNext := (r.issues + 1) % 256 == 0, cur := ⟨k.team, k.grp, k.split, BitVec.ofNat 64 programAt, len, m, none, i, none⟩ }
  | none => running ws

/-- The same once the word has been read. -/
def fetched (ws : List Nat) (m : Bool) (i : Instr) : State := { (fetching ws 4 false .join).readMem programAt 4 with cur := (fetching ws 4 m i).cur }

/-- The premises of StepRunsDecoded that do not speak of the instruction. -/
def Fetches (ws : List Nat) : Prop :=
  let s := running ws
  let q := fetching ws 4 false .join
  s.agenda = [] ∧ s.pkg.powered = true ∧ s.ownNext = false ∧ (∃ k r e, s.flushPosted.arbiter false = some (k, r) ∧
      r.split? k.team k.grp k.split = some e ∧ e.pc = BitVec.ofNat 64 programAt ∧ e.prog = none) ∧ q.issuer? = some (who q) ∧ windowOf (programAt + 4) < 2 ∧
    q.translate (who q).team.space programAt .fetch (who q).grp.privileged = .hit programAt ∧ q.poisoned programAt 4 = false

theorem witness_StepRunsDecoded_one_word : Fetches [0x8418] ∧ needsSecond 0x8418 = false ∧
    decodeWord 0x8418 0 = .ok (.iadd 1 2 3 false false false) ∧
    ∃ t, exec (.iadd 1 2 3 false false false) (fetched [0x8418] false (.iadd 1 2 3 false false false)) = .next t ∧ t.pkg.powered = true :=
  ⟨⟨rfl, rfl, rfl, ⟨_, _, _, rfl, rfl, rfl, rfl⟩, rfl, by decide +kernel, by decide +kernel, by decide +kernel⟩, by decide, rfl, _, rfl, rfl⟩

theorem witness_StepRunsDecoded_no_instruction : Fetches [0xB8000000] ∧ needsSecond 0xB8000000 = false ∧
    decodeWord 0xB8000000 0 = .error .reservedFormat ∧ ((who (fetched [0xB8000000] false .join)).raise .illegal (fetched [0xB8000000] false .join)).pkg.powered = true :=
  ⟨⟨rfl, rfl, rfl, ⟨_, _, _, rfl, rfl, rfl, rfl⟩, rfl, by decide +kernel, by decide +kernel, by decide +kernel⟩, by decide, rfl, by decide +kernel⟩

theorem witness_StepRunsDecoded_two_words : Fetches [0xB0010000, 0x12345678] ∧ needsSecond 0xB0010000 = true ∧
    decodeWord 0xB0010000 0x12345678 = .ok (.smov32 1 0x12345678#32) ∧
    (let q := fetched [0xB0010000, 0x12345678] false .join
     q.translate (who q).team.space (programAt + 4) .fetch (who q).grp.privileged = .hit (programAt + 4) ∧
       q.poisoned (programAt + 4) 4 = false ∧ q.nat (programAt + 4) 4 = 0x12345678) ∧
    ∃ t, exec (.smov32 1 0x12345678#32)
      { (fetched [0xB0010000, 0x12345678] false .join).readMem (programAt + 4) 4 with
        cur := (fetching [0xB0010000, 0x12345678] 8 false (.smov32 1 0x12345678#32)).cur } = .next t ∧ t.pkg.powered = true :=
  ⟨⟨rfl, rfl, rfl, ⟨_, _, _, rfl, rfl, rfl, rfl⟩, rfl, by decide +kernel, by decide +kernel, by decide +kernel⟩, by decide, rfl,
    by decide +kernel, _, rfl, rfl⟩

/-- What a lane word of the bench keeps when it has stopped at lane 5. -/
def stoppedAt : Progress :=
  ⟨BitVec.ofNat 64 programAt, .iadd 1 2 3 false false false, 4, false, 0, 5, 0xFFFFFFFF, 0, [], false, 0, false, [], [], 0, [], [], [], [], none, none⟩

/-- The bench with that word stopped. -/
def stopped : State := splitAs fun e => { e with prog := some stoppedAt }

theorem witness_StepRunsDecoded_stopped : stopped.agenda = [] ∧ stopped.pkg.powered = true ∧ stopped.ownNext = false ∧
    ∃ k r e, stopped.flushPosted.arbiter false = some (k, r) ∧ r.split? k.team k.grp k.split = some e ∧ e.prog = some stoppedAt ∧
      ∃ c t, (State.issuer? { r with ownNext := (r.issues + 1) % 256 == 0, cur := ⟨k.team, k.grp, k.split, e.pc, 4, false, none, .join, none⟩ }) = some c ∧
        exec stoppedAt.ins { r with ownNext := (r.issues + 1) % 256 == 0, cur := ⟨k.team, k.grp, k.split, e.pc, 4, false, none, stoppedAt.ins, none⟩ } =
          .next t ∧ t.pkg.powered = true :=
  ⟨rfl, rfl, rfl, _, _, _, rfl, rfl, rfl, _, _, rfl, rfl, rfl⟩

/-- The bench with that word stalled in its pipe and the split at the next word. -/
def issuingPast : State :=
  let s := running [0x8418, 0x8418]
  let on (e : Split) : Split := { e with pc := BitVec.ofNat 64 (programAt + 4), prog := some stoppedAt }
  { s with stalls := [(0, 0, 64)], teams := s.teams.modify 0 fun T => { T with groups := T.groups.modify 0 fun g => g.modSplit 0 on } }

theorem witness_StepRunsDecoded_issue_past : issuingPast.agenda = [] ∧ issuingPast.pkg.powered = true ∧ issuingPast.ownNext = false ∧
    ∃ k r e, issuingPast.flushPosted.arbiter false = some (k, r) ∧ r.split? k.team k.grp k.split = some e ∧ e.prog = some stoppedAt ∧
      k.continues = false := ⟨rfl, rfl, rfl, _, _, _, rfl, rfl, rfl, rfl⟩

theorem witness_RoundTrips : (Instr.iadd 1 2 3 false false false).wellFormed = true ∧
    encode true (.iadd 1 2 3 false false false) = [0x40008418#32] ∧ decodeWord 0x40008418 0 = .ok (.iadd 1 2 3 false false false) :=
  ⟨rfl, by decide +kernel, rfl⟩

/-! ### Lane words -/

/-- The lane words of the statements, on v1 to v4. -/
def laneWords : List LaneWord :=
  intWords 3 1 2 true false true ++ immWords 3 7 5 ++ moveWords 3 1 2 false true true 1 ++
    floatWords 3 1 2 false false true 0 0x3F80 ++ convertWords 3 1 2 true true true 1 2 5

theorem witness_lane_words : ∀ w ∈ laneWords, w.legal (who full).fmt = true ∧ LaneReady full (who full) w.srcs [w.d] := by
  have h : laneWords.all (fun w => w.legal (who full).fmt && laneReadyB full (who full) w.srcs [w.d]) = true := by decide +kernel
  intro w hw
  have := all_of _ _ h w hw
  simp only [Bool.and_eq_true] at this
  exact ⟨this.1, laneReady _ _ _ _ this.2⟩

/-- The bench without active lanes. -/
def nobody : State := splitAs fun e => { e with act := 0 }

theorem witness_lane_words_no_lane : Issues nobody (who nobody) ∧ (who nobody).active = 0 ∧ (who nobody).grp.vBusy 3 = false ∧
    ∀ w ∈ laneWords, w.legal (who nobody).fmt = true :=
  ⟨issues _ (by decide +kernel), by decide +kernel, by decide +kernel, all_of laneWords _ (by decide +kernel)⟩

/-- FMT with every reserved code. -/
def reservedFmt : State := stockedFmt 0x33C7

theorem witness_reserved : Issues reservedFmt (who reservedFmt) ∧ Handled reservedFmt (who reservedFmt) ∧
    ((floatWords 3 1 2 false false true 0 7 ++ convertWords 3 1 2 false false true 1 2 5).filter fun w => !w.legal (who reservedFmt).fmt).length = 21 :=
  ⟨issues _ (by decide +kernel), handled _ (by decide +kernel), by decide +kernel⟩

/-- The bench at a GUARD: two words. -/
def guarded : State :=
  let s := full
  { s with cur := { s.cur with len := 8, m := false, guard := some (1, false) } }

theorem witness_GUARD : Issues guarded (who guarded) ∧ LaneReady guarded (who guarded) [1, 2] [3] ∧ Handled guarded (who guarded) ∧
    decodeWord ((0#2 ++ 0#3 ++ 0#6 ++ 3#6 ++ 1#6 ++ 2#6 ++ 0#3 : BitVec 32).toNat) 0 = .ok (.iadd 3 1 2 false false false) ∧
    decodeWord 0xB0010000 0 = .ok (.smov32 1 0) :=
  ⟨issues _ (by decide +kernel), laneReady _ _ _ _ (by decide +kernel), handled _ (by decide +kernel), rfl, rfl⟩

theorem witness_pairs : ∀ w ∈ pairWords 4 6 8 true false false, LaneReady full (who full) w.srcs [w.d, w.d + 1] := by
  have h : (pairWords 4 6 8 true false false).all (fun w => laneReadyB full (who full) w.srcs [w.d, w.d + 1]) = true := by decide +kernel
  exact fun w hw => laneReady _ _ _ _ (all_of _ _ h w hw)

theorem witness_predicates : (∀ w ∈ predWords 1 6 8 true false 3 2 1 2 7, LaneReady full (who full) w.srcs []) ∧
    ∀ w ∈ predWords 7 6 8 true false 3 2 1 2 7, w.i.wellFormed = false := by
  have h : (predWords 1 6 8 true false 3 2 1 2 7).all (fun w => laneReadyB full (who full) w.srcs []) = true := by decide +kernel
  have h7 : (predWords 7 6 8 true false 3 2 1 2 7).all (fun w => !w.i.wellFormed) = true := by decide +kernel
  exact ⟨fun w hw => laneReady _ _ _ _ (all_of _ _ h w hw), fun w hw => by simpa using all_of _ _ h7 w hw⟩

theorem witness_units : ∀ w ∈ unitWords 3 1 2 true false true, w.legal (who full).fmt = true ∧ (who full).active ≠ 0 ∧
    (who full).badLanes w.srcs &&& (who full).active = 0 ∧ full.alloc (who full).team (who full).grp [w.d] 1 = .ok := by
  have h : (unitWords 3 1 2 true false true).all (fun w => decide (w.legal (who full).fmt = true ∧ (who full).active ≠ 0 ∧
    (who full).badLanes w.srcs &&& (who full).active = 0 ∧ full.alloc (who full).team (who full).grp [w.d] 1 = .ok)) = true := by decide +kernel
  exact fun w hw => by simpa using all_of _ _ h w hw

theorem witness_cross : ∀ w ∈ scanWords 3 1 4 true 1 ++ shuffleWords 3 1 4 true false,
    w.legal (who full).fmt = true ∧ LaneReady full (who full) w.srcs [w.d] ∧ (who full).grp.sbad.contains w.r = false := by
  have h : (scanWords 3 1 4 true 1 ++ shuffleWords 3 1 4 true false).all (fun w => w.legal (who full).fmt &&
    laneReadyB full (who full) w.srcs [w.d] && !(who full).grp.sbad.contains w.r) = true := by decide +kernel
  intro w hw
  have := all_of _ _ h w hw
  simp only [Bool.and_eq_true, Bool.not_eq_true'] at this
  exact ⟨this.1.1, laneReady _ _ _ _ this.1.2, this.2⟩

/-- The stocked bench with a member mask in s5. -/
def members : State := bench fun g => withS 5 0x00FF00FF (stocked g)

theorem witness_members : Issues members (who members) ∧
    ∀ w ∈ shuffleWords 3 1 4 true true,
      let c := who members
      let mm := c.grp.sreg (w.r + 1)
      mm &&& ~~~c.grp.alive = 0 ∧ (∀ e ∈ c.grp.splits, e.1 ≠ c.sid → e.2.st = .parent ∨ e.2.mask &&& mm = 0) ∧
        (∀ e ∈ c.grp.splits, e.2.memberAt ≠ some (c.pc, mm)) ∧ mm &&& c.active ≠ 0 ∧ c.grp.vBusy w.d = false ∧
        members.alloc c.team c.grp (c.needs [w.d]) (c.needs [w.d]).length = .ok ∧ c.badLanes w.srcs &&& (mm &&& c.active) = 0 ∧
        c.grp.sbad.contains w.r = false ∧ c.grp.sbad.contains (w.r + 1) = false := by
  refine ⟨issues _ (by decide +kernel), ?_⟩
  have h : (shuffleWords 3 1 4 true true).all (fun w => decide (
      let c := who members
      let mm := c.grp.sreg (w.r + 1)
      mm &&& ~~~c.grp.alive = 0 ∧ (∀ e ∈ c.grp.splits, e.1 ≠ c.sid → e.2.st = .parent ∨ e.2.mask &&& mm = 0) ∧
        (∀ e ∈ c.grp.splits, e.2.memberAt ≠ some (c.pc, mm)) ∧ mm &&& c.active ≠ 0 ∧ c.grp.vBusy w.d = false ∧
        members.alloc c.team c.grp (c.needs [w.d]) (c.needs [w.d]).length = .ok ∧ c.badLanes w.srcs &&& (mm &&& c.active) = 0 ∧
        c.grp.sbad.contains w.r = false ∧ c.grp.sbad.contains (w.r + 1) = false)) = true := by decide +kernel
  exact fun w hw => by simpa using all_of _ _ h w hw

theorem witness_LaneAndGroupWords : (who full).grp.sBusy 4 = false ∧ (who full).grp.sHeld 4 = false ∧ LaneReady full (who full) [1] [] ∧ scanLegal 1 (who full).fmt = true ∧
    LaneReady full (who full) [] [] ∧ LaneReady full (who full) [1] [3] ∧ LaneReady full (who full) [] [3] ∧
    (who full).grp.sbad.contains 4 = false :=
  ⟨by decide +kernel, by decide +kernel, laneReady _ _ _ _ (by decide +kernel), by decide +kernel, laneReady _ _ _ _ (by decide +kernel),
    laneReady _ _ _ _ (by decide +kernel), laneReady _ _ _ _ (by decide +kernel), by decide +kernel⟩

/-! ### Memory words -/

/-- The stocked bench with a base address in s2, s3. -/
def based : State := bench fun g => withS 3 0 (withS 2 0x40000 (stocked g))

theorem witness_memory : Issues based (who based) ∧
    ∀ w ∈ globalLoads 4 1 1 true 0 1 ++ globalStores 4 1 1 true 0 1 ++ globalAtomics 4 1 1 false 12,
      w.base.isSome = true → MemReady based (who based) w.srcs w.base w.dests ∧
        ∀ k, k < 32 → windowOf (w.ea (who based) k).toNat < 2 ∧ (w.ea (who based) k).toNat % w.size = 0 := by
  refine ⟨issues _ (by decide +kernel), ?_⟩
  have h : (globalLoads 4 1 1 true 0 1 ++ globalStores 4 1 1 true 0 1 ++ globalAtomics 4 1 1 false 12).all (fun w => !w.base.isSome ||
      (memReadyB based (who based) w.srcs w.base w.dests &&
        (List.range 32).all fun k => decide (windowOf (w.ea (who based) k).toNat < 2 ∧ (w.ea (who based) k).toNat % w.size = 0))) = true := by
    decide +kernel
  intro w hw hb
  have := all_of _ _ h w hw
  simp only [hb, Bool.not_true, Bool.false_or, Bool.and_eq_true] at this
  exact ⟨memReady _ _ _ _ _ this.1, fun k hk => by simpa using all32 _ this.2 k hk⟩

/-- Flat addresses in v6, v7: 0x40000 in every lane, or in a hole of alignment. -/
def flat (lo : Word) : State := bench fun g => withV 7 0 (withV 6 lo (stocked g))

theorem witness_flat : Issues (flat 0x40000) (who (flat 0x40000)) ∧
    ∀ x ∈ (globalLoads 4 6 1 true 0 1).drop 9 ++ (globalStores 4 6 1 true 0 1).drop 7,
      MemReady (flat 0x40000) (who (flat 0x40000)) x.srcs x.base x.dests ∧
        ∀ k, k < 32 → windowOf (x.ea (who (flat 0x40000)) k).toNat < 2 ∧ (x.ea (who (flat 0x40000)) k).toNat % x.size = 0 := by
  refine ⟨issues _ (by decide +kernel), ?_⟩
  have h : ((globalLoads 4 6 1 true 0 1).drop 9 ++ (globalStores 4 6 1 true 0 1).drop 7).all (fun x =>
      memReadyB (flat 0x40000) (who (flat 0x40000)) x.srcs x.base x.dests && (List.range 32).all fun k =>
        decide (windowOf (x.ea (who (flat 0x40000)) k).toNat < 2 ∧ (x.ea (who (flat 0x40000)) k).toNat % x.size = 0)) = true := by
    decide +kernel
  intro x hx
  have := all_of _ _ h _ hx
  simp only [Bool.and_eq_true] at this
  exact ⟨memReady _ _ _ _ _ this.1, fun k hk => by simpa using all32 _ this.2 k hk⟩

theorem witness_pad : ∀ w ∈ padWords 4 1 1 true 0 3, MemReady based (who based) w.srcs (some w.r) w.dests ∧
    (who based).grp.sreg (w.r + 1) = 0 ∧ (who based).team.padSize = 4096 := by
  have h : (padWords 4 1 1 true 0 3).all (fun w => memReadyB based (who based) w.srcs (some w.r) w.dests &&
    (who based).grp.sreg (w.r + 1) == 0 && (who based).team.padSize == 4096) = true := by decide +kernel
  intro w hw
  have := all_of _ _ h w hw
  simp only [Bool.and_eq_true, beq_iff_eq] at this
  exact ⟨memReady _ _ _ _ _ this.1.1, this.1.2, this.2⟩

/-- The stocked bench with a pad offset of 64 in s2. -/
def padded : State := bench fun g => withS 3 0 (withS 2 64 (stocked g))

theorem witness_pad_offsets : ∀ w ∈ padWords 4 1 1 true 0 3, ∀ k < 32,
    0 ≤ w.off (who padded) k ∧ w.off (who padded) k + w.size ≤ (who padded).team.padSize ∧ w.off (who padded) k % w.size = 0 := by
  have h : (padWords 4 1 1 true 0 3).all (fun w => (List.range 32).all fun k => decide (
    0 ≤ w.off (who padded) k ∧ w.off (who padded) k + w.size ≤ (who padded).team.padSize ∧ w.off (who padded) k % w.size = 0)) = true := by
    decide +kernel
  exact fun w hw k hk => by simpa using all32 _ (all_of _ _ h w hw) k hk

/-- Flat addresses in v6, v7 of which lane 2's is the first that is misaligned; lane 1 is not active. -/
def flatAt2 : State :=
  let lanes : Vector Word 32 := Vector.ofFn fun i => if i.val < 2 then 0x40000 else 0x40002
  bench fun g => { withV 7 0 (stocked g) with
    v := (withV 7 0 (stocked g)).v.insert 6 ⟨lanes, 0⟩, splits := g.splits.modify 0 fun e => { e with act := 0xFFFFFFFD } }

theorem witness_MisalignedLanesAndPrefetch : ∀ x ∈ [(flat 0x40002, 0), (flatAt2, 2)],
    Issues x.1 (who x.1) ∧ (who x.1).behindAcquire = false ∧ Handled x.1 (who x.1) ∧ MemReady x.1 (who x.1) [6, 7] none [4] ∧
      (who x.1).active ≠ 0 ∧ (who x.1).active.has x.2 = true ∧
      let ea (k : Nat) : Dword := pair ((who x.1).lane 7 k) ((who x.1).lane 6 k) + BitVec.ofNat 64 (0 * 4)
      (ea x.2).toNat % 4 ≠ 0 ∧ ∀ j < 3, j ≤ x.2 → (who x.1).active.has j = true → windowOf (ea j).toNat < 2 ∧ (j < x.2 → (ea j).toNat % 4 = 0) := by
  intro x hx
  simp only [List.mem_cons, List.not_mem_nil, or_false] at hx
  rcases hx with rfl | rfl <;>
    exact ⟨issues _ (by decide +kernel), by decide +kernel, handled _ (by decide +kernel), memReady _ _ _ _ _ (by decide +kernel),
      by decide +kernel, by decide +kernel, by decide +kernel⟩

theorem witness_prefetch_no_lane : Issues nobody (who nobody) ∧ (who nobody).behindAcquire = false ∧ (who nobody).active = 0 :=
  ⟨issues _ (by decide +kernel), by decide +kernel, by decide +kernel⟩

/-! ### Group words -/

theorem witness_uniform : ∀ w ∈ uniformWords 3 1 2 true 6 ++ uniformImms 3 1 7 5 9, w.legal (who full).fmt = true ∧ WordReady (who full) w.reads [w.d] := by
  have h : (uniformWords 3 1 2 true 6 ++ uniformImms 3 1 7 5 9).all (fun w => w.legal (who full).fmt && wordReadyB (who full) w.reads [w.d]) = true := by
    decide +kernel
  intro w hw
  have := all_of _ _ h w hw
  simp only [Bool.and_eq_true] at this
  exact ⟨this.1, wordReady _ _ _ this.2⟩

theorem witness_uniform_pairs : WordReady (who full) [2, 3, 4, 5] [6, 7] ∧ WordReady (who full) [1, 2] [] ∧ (who full).grp.sComing 6 = false :=
  ⟨wordReady _ _ _ (by decide +kernel), wordReady _ _ _ (by decide +kernel), by decide +kernel⟩

/-- The stocked bench with poison in s1. -/
def poisoned : State := bench fun g => { stocked g with sbad := [1] }

theorem witness_poisoned : Issues poisoned (who poisoned) ∧ Handled poisoned (who poisoned) ∧ ∀ w ∈ uniformWords 3 1 2 true 6,
    w.legal (who poisoned).fmt = true ∧ ∃ n ∈ w.reads, n ∈ (who poisoned).grp.sbad := by
  refine ⟨issues _ (by decide +kernel), handled _ (by decide +kernel), ?_⟩
  have h : (uniformWords 3 1 2 true 6).all (fun w => decide (w.legal (who poisoned).fmt = true ∧ ∃ n ∈ w.reads, n ∈ (who poisoned).grp.sbad)) = true := by
    decide +kernel
  exact fun w hw => by simpa using all_of _ _ h w hw

end Sys2Proof.Tests
end

section
namespace Sys2Proof.Machine

/-! ## R45: scale codes and 8-bit integers -/

theorem scaleValue_e8m0 {e : Nat} (h : e ≠ 255) : scaleValue 1 e = .fin false 1 ((e : Int) - 127) := by
  simp [scaleValue, h]

theorem scaleValue_e8m0_nan : scaleValue 1 0xFF = .nan := rfl

theorem Fmt.int8_of_i8 {f : Fmt} (h : f.q8 = 2) (c : Nat) : f.int8 c = (BitVec.ofNat 8 c).toInt := if_pos h

theorem Fmt.int8_of_n8 {f : Fmt} (h : f.q8 = 3) (c : Nat) : f.int8 c = c := if_neg (by omega)

/-- The code of v in range is its byte in two's complement. -/
theorem Fmt.exists_int8_eq_iff_of_i8 {f : Fmt} (h : f.q8 = 2) (v : Int) :
    (∃ c < 256, f.int8 c = v) ↔ -128 ≤ v ∧ v ≤ 127 := by
  constructor
  · rintro ⟨c, -, rfl⟩
    have hlo := BitVec.le_toInt (BitVec.ofNat 8 c)
    have hhi := BitVec.toInt_lt (x := BitVec.ofNat 8 c)
    rw [int8_of_i8 h]
    omega
  · rintro ⟨hlo, hhi⟩
    refine ⟨(BitVec.ofInt 8 v).toNat, (BitVec.ofInt 8 v).isLt, ?_⟩
    rw [int8_of_i8 h, BitVec.ofNat_toNat, BitVec.setWidth_eq]
    exact BitVec.toInt_ofInt_eq_self (by decide) hlo (by omega)

/-- The code of v in range is v itself. -/
theorem Fmt.exists_int8_eq_iff_of_n8 {f : Fmt} (h : f.q8 = 3) (v : Int) :
    (∃ c < 256, f.int8 c = v) ↔ 0 ≤ v ∧ v ≤ 255 := by
  constructor
  · rintro ⟨c, hc, rfl⟩
    rw [int8_of_n8 h]
    omega
  · rintro ⟨hlo, hhi⟩
    refine ⟨v.toNat, by omega, ?_⟩
    rw [int8_of_n8 h, Int.toNat_of_nonneg hlo]

/-- Settles O4: E8M0 by the code's being 255 or not, the integers by the codes of their ranges. -/
theorem scaleCodes : Obligations.ScaleCodes := by
  unfold Obligations.ScaleCodes
  exact ⟨fun _ he => scaleValue_e8m0 (Nat.ne_of_lt he), scaleValue_e8m0_nan,
    fun _ v => ⟨fun h => Fmt.exists_int8_eq_iff_of_i8 h v, fun h => Fmt.exists_int8_eq_iff_of_n8 h v⟩⟩

end Sys2Proof.Machine
end

section
namespace Sys2Proof.Machine

/-! ## R157: when a future is complete -/

/-- The window of R157: the natural-number form that the model computes is the difference modulo 2^40. -/
theorem atOrBelow_iff (a b : Nat) : atOrBelow a b = true ↔ ((b : Int) - a) % 2 ^ 40 < 2 ^ 39 := by
  rw [atOrBelow, decide_eq_true_iff, futureMod]
  omega

theorem ECtx.passed_iff (x : ECtx) (n : Nat) : x.passed n = true ↔ ((x.counter : Int) - n) % 2 ^ 40 < 2 ^ 39 :=
  atOrBelow_iff n x.counter

@[simp] theorem State.futureDone_zero (s : State) (n : Nat) : s.futureDone 0 n = true := rfl

/-- A future of a context that exists. -/
theorem State.futureDone_iff {s : State} {c : Nat} {x : ECtx} (h : s.ectxs.find? c = some x) (n : Nat) :
    s.futureDone c n = true ↔ c = 0 ∨ x.passed n = true := by
  simp [State.futureDone, h]

/-- Settles O34: by the context's being 0 or not, and the window of its counter. -/
theorem futureTest : Obligations.FutureTest := by
  unfold Obligations.FutureTest
  refine fun s c n => ⟨?_, fun x hx => ?_⟩
  · rintro rfl
    exact s.futureDone_zero n
  · rw [State.futureDone_iff hx, ECtx.passed_iff]

/-! ## R190: BATCH -/

theorem exec_batch (q : BitVec 4) (e : BitVec 2) (s : State) : exec (.batch q e) s = execBatch q e s := rfl

theorem wellFormed_batch (q : BitVec 4) (e : BitVec 2) : (Instr.batch q e).wellFormed = (e != 3) := rfl

/-- The engine context of a group that BATCH's code names. -/
def Group.batchCtx (g : Group) (e : BitVec 2) : Nat := if e = 0 then g.mctx else if e = 1 then g.cctx else g.gctx

/-- BATCH selects that context. -/
theorem execBatch_eq (q : BitVec 4) (e : BitVec 2) (s : State) : execBatch q e s = withIssuer s fun c =>
    c.finish (s.modGroup c.tid c.gid fun g =>
      g.setQ q.toNat (future (c.grp.batchCtx e) (((s.ectxs.find? (c.grp.batchCtx e)).map ECtx.issued).getD 0))) := by
  have he : e = 0 ∨ e = 1 ∨ e = 2 ∨ e = 3 := by revert e; decide
  rcases he with rfl | rfl | rfl | rfl <;> rfl

/-- BATCH gives the number of the last operation on the context (R190). -/
theorem batch_completes {s : State} {c : Issuer} (hi : Issues s c) (q : BitVec 4) {e : BitVec 2} {x : ECtx}
    (hx : s.ectxs.find? (c.grp.batchCtx e) = some x) :
    Completes (.batch q e) s c (c.grp.setQ q.toNat (future (c.grp.batchCtx e) x.issued)) := by
  rw [Completes, exec_batch, execBatch_eq, withIssuer_eq hi.issuer, finish_becomes hi, hx, Option.map_some,
    Option.getD_some]

/-- Settles O35: the context by the code's value; number 0 lies in the window of a counter at 0. -/
theorem batchFuture : Obligations.BatchFuture := by
  unfold Obligations.BatchFuture
  refine ⟨fun s c q e x hi hx => ⟨batch_completes hi q hx, fun _ h0 => ?_⟩, fun q => wellFormed_batch q 3⟩
  rw [State.futureDone_iff hx, ECtx.passed_iff, h0]
  exact .inr (by decide)

/-! ## R193: QMOV -/

theorem wellFormed_qmov (q : BitVec 4) (a : BitVec 6) (n : BitVec 4) (f : BitVec 2) :
    (Instr.qmov q a n f).wellFormed = ((f == 0 || f == 1) && ev a && n == 0 || f == 2 && a == 0) := rfl

/-! ### Writing s registers -/

theorem pair_hiWord_loWord (x : Dword) : pair (hiWord x) (loWord x) = x := by
  have halves : hiWord x ++ loWord x = x.extractLsb' 0 64 := BitVec.extractLsb'_append_extractLsb'_eq_extractLsb' rfl
  rw [pair, halves, BitVec.extractLsb'_eq_self]

@[simp] theorem Group.sreg_setS_self (g : Group) (i : Nat) (x : Word) : (g.setS i x).sreg i = x :=
  SMap.getD_put_self 0 g.s i x

theorem Group.sreg_setS_ne (g : Group) {i m : Nat} (x : Word) (h : m ≠ i) : (g.setS i x).sreg m = g.sreg m :=
  SMap.getD_put_ne 0 g.s x h

theorem Group.mem_sbad_setS_of_ne (g : Group) {i m : Nat} (x : Word) (h : m ≠ i) : m ∈ (g.setS i x).sbad ↔ m ∈ g.sbad := by
  simp [Group.setS, setErase, h]

/-- The pair reads back. -/
theorem Group.spair_setPair (g : Group) (i : Nat) (x : Dword) : (g.setPair i x).spair i = x := by
  rw [Group.spair, Group.setPair, Group.sreg_setS_self, Group.sreg_setS_ne _ _ (Nat.ne_of_lt i.lt_succ_self),
    Group.sreg_setS_self, pair_hiWord_loWord]

/-- Writing a pair leaves the value and the poison of every other s register. -/
theorem Group.setPair_frame (g : Group) {i m : Nat} (x : Dword) (h : m ≠ i) (h' : m ≠ i + 1) :
    (g.setPair i x).sreg m = g.sreg m ∧ (m ∈ (g.setPair i x).sbad ↔ m ∈ g.sbad) := by
  rw [Group.setPair, Group.sreg_setS_ne _ _ h', Group.sreg_setS_ne _ _ h, Group.mem_sbad_setS_of_ne _ _ h',
    Group.mem_sbad_setS_of_ne _ _ h]
  exact ⟨rfl, Iff.rfl⟩

/-! ### The forms -/

theorem exec_qmov_zero (q n : BitVec 4) (a : BitVec 6) (s : State) :
    exec (.qmov q a n 0) s = groupWord [a.toNat, a.toNat + 1] [] s fun c =>
      c.finish (s.modGroup c.tid c.gid fun g => g.setQ q.toNat (c.grp.spair a.toNat)) := rfl

theorem exec_qmov_one (q n : BitVec 4) (a : BitVec 6) (s : State) :
    exec (.qmov q a n 1) s = groupWord [] [a.toNat, a.toNat + 1] s fun c =>
      c.finish (s.modGroup c.tid c.gid fun g => g.setPair a.toNat (c.grp.qreg q.toNat)) := rfl

theorem exec_qmov_two (q n : BitVec 4) (a : BitVec 6) (s : State) :
    exec (.qmov q a n 2) s = withIssuer s fun c =>
      c.finish (s.modGroup c.tid c.gid fun g => g.setQ q.toNat (c.grp.qreg n.toNat)) := rfl

theorem qmov_zero_completes {s : State} {c : Issuer} (hi : Issues s c) (q n : BitVec 4) {a : BitVec 6}
    (hw : WordReady c [a.toNat, a.toNat + 1] []) :
    Completes (.qmov q a n 0) s c (c.grp.setQ q.toNat (c.grp.spair a.toNat)) := by
  rw [Completes, exec_qmov_zero, groupWord_ready hi.issuer hw, finish_becomes hi]

theorem qmov_one_completes {s : State} {c : Issuer} (hi : Issues s c) (q n : BitVec 4) {a : BitVec 6}
    (hw : WordReady c [] [a.toNat, a.toNat + 1]) :
    Completes (.qmov q a n 1) s c (c.grp.setPair a.toNat (c.grp.qreg q.toNat)) := by
  rw [Completes, exec_qmov_one, groupWord_ready hi.issuer hw, finish_becomes hi]

theorem qmov_two_completes {s : State} {c : Issuer} (hi : Issues s c) (q n : BitVec 4) (a : BitVec 6) :
    Completes (.qmov q a n 2) s c (c.grp.setQ q.toNat (c.grp.qreg n.toNat)) := by
  rw [Completes, exec_qmov_two, withIssuer_eq hi.issuer, finish_becomes hi]

/-- Settles O36: one lemma for each form; form 1 by reading its pair back and the frame of the other s registers. -/
theorem futureMoves : Obligations.FutureMoves := by
  unfold Obligations.FutureMoves
  refine ⟨fun s c q n a hi => ⟨qmov_zero_completes hi q n, fun hw => ?_, qmov_two_completes hi q n a⟩, fun q n a => ?_⟩
  · exact ⟨_, _, qmov_one_completes hi q n hw, c.grp.spair_setPair a.toNat _, fun m => c.grp.setPair_frame _⟩
  · simp [wellFormed_qmov, ev]

end Sys2Proof.Machine
end
